-- ==== Sys2Proof/Word.lean ====
section
/-! DEFINITION. The unit the part sends and receives: one character of eight bits (R5, R183). -/

namespace Sys2Proof

/-- One character of a frame, of a command or of a response (R5: eight data bits). -/
abbrev Byte := BitVec 8

end Sys2Proof
end

