-- ==== Sys2Proof/Syntax.lean ====
section
/-! DEFINITION. The commands: one constructor for every row of spec/opcode_table.json, in the table's order. -/

namespace Sys2Proof

/-- One reading of a SAMPLES message (R28): a signed value in tenths of a gram with status OK, or a reading with
status FAULT, whose value nothing reads (R29). -/
inductive Reading
  | ok (tenths : Int)
  | fault
  deriving DecidableEq, Repr

/-- The commands of the part. A host command carries the body characters of its frame (R183); a scale's message its
scale and its arguments (R22); a deadline's expiry the article or ticket the deadline belongs to. -/
inductive Instr
  -- power, reset and SPI transactions (R183, R184, R190, R191)
  | powerOn
  | resetFall
  | resetRise (lowMicros : Nat)
  | responseRead (clocked : Nat)
  | badFrame (code : Byte) (rest : List Byte)
  | shortTransaction (chars : List Byte)
  | unknownCommand (code : Byte) (body : List Byte)
  -- host commands
  | artCreate (body : List Byte)
  | artChange (body : List Byte)
  | artRetire (body : List Byte)
  | artRead (body : List Byte)
  | stnConfig (body : List Byte)
  | stnMode (body : List Byte)
  | stnRead (body : List Byte)
  | clkEnrol (body : List Byte)
  | clkRemove (body : List Byte)
  | clkRead (body : List Byte)
  | tktRead (body : List Byte)
  | ticketDirectory
  | tktCancel (body : List Byte)
  | tktRelease (body : List Byte)
  | queRead (body : List Byte)
  | queReset (body : List Byte)
  | wchSet (body : List Byte)
  | wchRead (body : List Byte)
  | totClose (body : List Byte)
  | totRead (body : List Byte)
  | totClear (body : List Byte)
  | ctrSet (body : List Byte)
  | ctrRead (body : List Byte)
  | ctrTime (body : List Byte)
  | ctrRestart (body : List Byte)
  | ctrStatus (body : List Byte)
  | ntcRead (body : List Byte)
  | ntcAck (body : List Byte)
  -- the clock and the line (R4, R6, R186)
  | clockTick
  | downstreamSent
  | replyFrame (chars : List Byte)
  | replyWindowExpiry
  | replyIncomplete
  -- messages and scale actions, as the part takes them (R14, R22)
  | samples (scale : Nat) (readings : List Reading)
  | select (scale article : Nat)
  | clear (scale : Nat)
  | tare (scale : Nat)
  | ptare (scale grams : Nat)
  | clrtare (scale : Nat)
  | zero (scale : Nat)
  | qty (scale quantity : Nat)
  | login (scale clerk : Nat)
  | logout (scale : Nat)
  | newTicket (scale : Nat)
  | switch (scale ticket : Nat)
  | add (scale stamp : Nat)
  | label (scale stamp : Nat)
  | voidItem (scale position : Nat)
  | voidTicket (scale : Nat)
  | close (scale : Nat)
  | release (scale ticket : Nat)
  | next (scale : Nat)
  | recallNumber (scale : Nat)
  | skip (scale : Nat)
  | override (scale article unitPrice : Nat)
  | unknownAction (scale code : Nat)
  | purged (scale : Nat) (article : Option Nat)
  | printed (scale tag : Nat) (ok : Bool)
  | take
  -- deadlines (R102, R126, R143, R157)
  | settleTimeout (article : Nat)
  | idleDeadlineExpiry (ticket : Nat)
  | expiryDeadlineExpiry (ticket : Nat)
  | printDeadlineExpiry (ticket : Nat)
  | residencyExpiry
  -- characters and transactions without effect (R4, R183)
  | lineCharactersOutsideVisit (chars : List Byte)
  | emptyTransaction
  deriving DecidableEq, Repr

end Sys2Proof
end

