-- ==== Sys2Proof/Decode.lean ====
section
/-! DEFINITION. The commands that a word of opcode bits spells. The table gives none of its rows any bits (every row is
a transaction, a frame, a message or an event), so no word spells a command. The character layouts of frames, messages
and command bodies are decoded in Sys2Proof/Machine/Operands.lean and in the meanings. -/

namespace Sys2Proof

/-- No row of spec/opcode_table.json has "fixed" or "fields": every word is none. -/
def decodeTableWord (_nbits _w : Nat) : Option Instr := none

end Sys2Proof
end

