-- ==== Sys2Proof/Config.lean ====
section
/-! DEFINITION. What the spec leaves open: free values, which no proof can evaluate. Everything else an implementation
could fix is fixed by the spec or is a counter setting (R185), which is state. -/

namespace Sys2Proof

/-- A deadline that an event of the part's own is waiting for (R98, R114, R134, R149). -/
inductive Deadline
  | settle (article : Nat)
  | idle (ticket : Nat)
  | expiry (ticket : Nat)
  | print (ticket : Nat)
  | residency
  deriving DecidableEq, Repr

/-- FREE VALUE: the moment the 48-bit time base stands at where a sum passes its range. R186 gives the width and no
wrap. Log entry 3. -/
opaque Config.momentPastRange : Nat → BitVec 48

/-- FREE VALUE: which of two deadlines of the same moment is taken first after a RESET pulse too short to restart the
part, by the count of such pulses and the deadline. R191 says they are taken and gives no order. Log entry 10. -/
opaque Config.tieRank : Nat → Deadline → Nat

end Sys2Proof
end

