-- ==== Sys2Proof/Machine/Table.lean ====
section
/-! DEFINITION. Keyed records: a list of (key, record) pairs in ONE canonical form, keys strictly rising and no entry
equal to the record an unlisted key holds, so that equal tables are equal data. Also ordered sets of numbers. -/

namespace Sys2Proof.Machine

/-- A table of records by number (station address, scale, article, clerk). An unlisted key holds the power-on record,
which every reader and writer of the table is given. -/
abbrev Tbl (α : Type) := List (Nat × α)

/-- The record of key k; d is what an unlisted key holds. -/
def Tbl.read {α : Type} (d : α) : Tbl α → Nat → α
  | [], _ => d
  | (j, v) :: rest, k => if j = k then v else Tbl.read d rest k

/-- The table without an entry for k. -/
def Tbl.drop {α : Type} : Tbl α → Nat → Tbl α
  | [], _ => []
  | (j, v) :: rest, k => if j = k then Tbl.drop rest k else (j, v) :: Tbl.drop rest k

/-- An entry placed before the first greater key. -/
def Tbl.place {α : Type} : Tbl α → Nat → α → Tbl α
  | [], k, v => [(k, v)]
  | (j, w) :: rest, k, v => if k < j then (k, v) :: (j, w) :: rest else (j, w) :: Tbl.place rest k v

/-- The table after a write of v at k: writing what an unlisted key holds removes the entry. -/
def Tbl.write {α : Type} [DecidableEq α] (d : α) (t : Tbl α) (k : Nat) (v : α) : Tbl α :=
  if v = d then Tbl.drop t k else Tbl.place (Tbl.drop t k) k v

/-- The canonical form: keys strictly rising, no entry equal to d. -/
abbrev Tbl.wf {α : Type} (d : α) (t : Tbl α) : Prop :=
  t.Pairwise (fun x y => x.1 < y.1) ∧ ∀ e ∈ t, e.2 ≠ d

/-- The sum of a measure over the listed records; the measure of the record of an unlisted key is 0. -/
def Tbl.total {α : Type} (f : α → Nat) (t : Tbl α) : Nat := (t.map (fun e => f e.2)).sum

/-- A number put into a rising list without repeats. -/
def setInsert (x : Nat) : List Nat → List Nat
  | [] => [x]
  | y :: rest => if x < y then x :: y :: rest else if x = y then y :: rest else y :: setInsert x rest

/-- A number taken out of a list. -/
def setErase (x : Nat) (l : List Nat) : List Nat := l.filter (fun y => y != x)

/-- The numbers of a list, rising and without repeats. -/
def rising (l : List Nat) : List Nat := l.foldr setInsert []

end Sys2Proof.Machine
end

