-- ==== Sys2Proof/Machine/Records.lean ====
section
/-! DEFINITION. The records the nine blocks hold and the messages of the counter line, as plain data. -/

namespace Sys2Proof.Machine

/-! ## Articles (R67) -/

/-- How an article's price is formed (00_scope.md, Terms; codes of R69). -/
inductive SaleMode
  | byWeight
  | byCount
  | fixed
  deriving DecidableEq, Repr

/-- The content fields of R67. -/
structure Content where
  name : List Byte
  mode : SaleMode
  price : Nat
  markdown : Nat
  tare : Nat
  deriving DecidableEq, Repr

/-- An article's number, revision and content, as a FILL carries them and a SELECT takes them (R22, R46, R93). -/
structure Snapshot where
  number : Nat
  revision : Nat
  content : Content
  deriving DecidableEq, Repr

/-- R68. -/
inductive ArticleState
  | empty
  | live
  | changing
  | retiring
  deriving DecidableEq, Repr

/-- The article record of R67; its number is its key. The sets are rising lists of scales. -/
structure Article where
  state : ArticleState
  content : Option Content
  revision : Nat
  holders : List Nat
  pins : List Nat
  refs : Nat
  deriving DecidableEq, Repr

/-- An unused slot (R67, R84). -/
def Article.powerOn : Article :=
  { state := .empty, content := none, revision := 0, holders := [], pins := [], refs := 0 }

/-! ## Weighing channels (R25, R26, R46, R49) -/

/-- The metrology configuration of R26. -/
structure MetroConfig where
  max : Nat
  split : Nat
  e1 : Nat
  e2 : Nat
  k : Nat
  band : Nat
  count : Nat
  spike : Nat
  tareLimit : Nat
  tracking : Bool
  deriving DecidableEq, Repr

/-- The default of R26. -/
def MetroConfig.powerOn : MetroConfig :=
  { max := 15000, split := 6000, e1 := 2, e2 := 5, k := 2, band := 10, count := 3, spike := 20, tareLimit := 3000,
    tracking := true }

/-- R25. -/
inductive Motion
  | filling
  | fault
  | motion
  | stable
  deriving DecidableEq, Repr

/-- R25, R34. -/
inductive RangeState
  | range1
  | range2
  deriving DecidableEq, Repr

/-- R36, R49. -/
inductive WeightState
  | filling
  | fault
  | motion
  | stable
  | overload
  | underload
  deriving DecidableEq, Repr

/-- R49, R58. -/
inductive PriceState
  | noPrice
  | priced
  | underMin
  | priceOver
  | cancelled
  deriving DecidableEq, Repr

/-- The tare of R39: a kind, and a value in grams where the kind is not NONE. -/
inductive Tare
  | noTare
  | weighed (grams : Nat)
  | keyed (grams : Nat)
  | preset (grams : Nat)
  deriving DecidableEq, Repr

/-- The filter result of R25: f and g_f in tenths of a gram, G in grams. -/
structure FilterResult where
  f : Int
  fine : Int
  gross : Int
  deriving DecidableEq, Repr

/-- The service context of R46. -/
structure ServiceContext where
  clerk : Option Nat
  activeTicket : Option Nat
  pin : Option Snapshot
  quantity : Option Nat
  cancelled : Bool
  deriving DecidableEq, Repr

/-- The empty service context (R47). -/
def ServiceContext.powerOn : ServiceContext :=
  { clerk := none, activeTicket := none, pin := none, quantity := none, cancelled := false }

/-- The pinned article of a verdict (R49). -/
structure PinView where
  number : Nat
  revision : Nat
  name : List Byte
  mode : SaleMode
  deriving DecidableEq, Repr

/-- The verdict of R49 without its scale, which is the channel's key, and its stamp, which stands beside it. -/
structure Verdict where
  weight : WeightState
  gross : Option Int
  range : RangeState
  tare : Option Nat
  net : Option Int
  pin : Option PinView
  quantity : Option Nat
  unit : Option Nat
  priceState : PriceState
  price : Option Nat
  proof : Bool
  deriving DecidableEq, Repr

/-- The empty verdict of R47 and R49. -/
def Verdict.powerOn : Verdict :=
  { weight := .filling, gross := none, range := .range1, tare := none, net := none, pin := none, quantity := none,
    unit := none, priceState := .noPrice, price := none, proof := false }

/-- The weighing channel of R25. -/
structure Channel where
  config : MetroConfig
  history : List Int
  window : List Int
  motion : Motion
  pass : Nat
  zero : Int
  range : RangeState
  result : Option FilterResult
  noise : Nat
  tare : Tare
  ctx : ServiceContext
  verdict : Verdict
  stamp : Nat
  deriving DecidableEq, Repr

/-- The power-on values of R25. -/
def Channel.powerOn : Channel :=
  { config := .powerOn, history := [], window := [], motion := .filling, pass := 0, zero := 0, range := .range1,
    result := none, noise := 0, tare := .noTare, ctx := .powerOn, verdict := .powerOn, stamp := 0 }

/-! ## Copies and changes (R86, R98) -/

/-- A copy entry of R86. -/
structure CopyEntry where
  article : Nat
  revision : Nat
  purging : Bool
  deriving DecidableEq, Repr

/-- R98. -/
inductive ChangeKind
  | change
  | retire
  deriving DecidableEq, Repr

/-- A change in flight (R98). -/
structure Change where
  article : Nat
  kind : ChangeKind
  oldRevision : Nat
  deadline : Nat
  deriving DecidableEq, Repr

/-! ## Clerks, tickets and print jobs (R108, R114, R115, R134) -/

/-- The clerk record of R108; its number is its key. -/
structure Clerk where
  enrolled : Bool
  supervisor : Bool
  scale : Option Nat
  active : Option Nat
  deriving DecidableEq, Repr

/-- R108. -/
def Clerk.powerOn : Clerk := { enrolled := false, supervisor := false, scale := none, active := none }

/-- An item of R115; its position is its place in the list. -/
structure Item where
  article : Nat
  revision : Nat
  mode : SaleMode
  net : Option Nat
  tare : Option Nat
  quantity : Option Nat
  unit : Nat
  price : Nat
  scale : Nat
  voided : Bool
  deriving DecidableEq, Repr

/-- The print job of R134. -/
structure PrintJob where
  scale : Nat
  tag : Nat
  deadline : Nat
  deriving DecidableEq, Repr

/-- The ticket states of R114, each with the deadline or the job that R114 gives it. -/
inductive TicketState
  | opened (idle : Nat)
  | held
  | parked (expiry : Nat)
  | printing (job : PrintJob)
  | printWait
  deriving DecidableEq, Repr

/-- R114. -/
inductive TicketKind
  | counter
  | direct
  deriving DecidableEq, Repr

/-- The ticket of R114. -/
structure Ticket where
  number : Nat
  kind : TicketKind
  queueNumber : Option Nat
  clerk : Nat
  state : TicketState
  items : List Item
  total : Nat
  openedAt : Nat
  lastActivity : Nat
  aSeen : Bool
  deriving DecidableEq, Repr

/-- What the Service Controller holds for each scale beside the ticket table (R134). -/
structure PrintRecord where
  nextTag : Nat
  lastProof : Option Nat
  strays : Nat
  deriving DecidableEq, Repr

/-- R134. -/
def PrintRecord.powerOn : PrintRecord := { nextTag := 0, lastProof := none, strays := 0 }

/-! ## Queue (R149) -/

/-- R149, R157. -/
inductive RushLevel
  | normal
  | rush
  deriving DecidableEq, Repr

/-! ## Stations and line messages (R1, R17, R22) -/

/-- R1: fixed by the address. -/
inductive StationKind
  | scale
  | dispenser
  | display
  deriving DecidableEq, Repr

/-- The configured mode of R1. -/
inductive Mode
  | off
  | normal
  | detached
  | proof
  deriving DecidableEq, Repr

/-- The station state of R1 and R2. -/
inductive StationState
  | off
  | absent
  | joining
  | normal
  | detached
  | proof
  deriving DecidableEq, Repr

/-- The reply codes of R22. -/
inductive ReplyCode
  | ok
  | unknown
  | noClerk
  | noArticle
  | tareRange
  | motion
  | wrongState
  | zeroRange
  | badValue
  | limit
  | tableFull
  | held
  | proofOnly
  | stale
  | overload
  | underMin
  | priceOver
  | ticketFull
  | watched
  | notSupervisor
  | locked
  | busy
  | full
  | emptyQueue
  deriving DecidableEq, Repr

/-- The label of a PRINT (R139). -/
inductive Label
  | total (tag ticket : Nat) (queueNumber : Option Nat) (clerk count cents time period : Nat)
  | item (tag : Nat) (proof : Bool) (ticket : Nat) (mode : SaleMode) (amount : Nat) (tare : Option Nat)
      (unit price time : Nat) (name : List Byte)
  deriving DecidableEq, Repr

/-- The fields a SETMODE carries for a scale (R8, R22). -/
structure ScaleLayout where
  max : Nat
  split : Nat
  e1 : Nat
  e2 : Nat
  deriving DecidableEq, Repr

/-- The downstream messages that stand in outbound queues (R22). ASK is never an entry (R13). -/
inductive DownMsg
  | fill (copy : Snapshot)
  | purge (article : Nat)
  | purgeAll
  | verdict (scale stamp : Nat) (verdict : Verdict)
  | reply (action : Nat) (code : ReplyCode) (data : List Byte)
  | print (label : Label)
  | callout (level : RushLevel) (waiting : Nat) (serving : List (Nat × Nat))
  | setmode (target : StationState) (join : Bool) (layout : Option ScaleLayout)
  deriving DecidableEq, Repr

/-- An entry of an outbound queue (R17). -/
structure Entry where
  msg : DownMsg
  sent : Bool
  deriving DecidableEq, Repr

/-- The purge backlog of R1: article numbers in order of entry, or the marker "all". -/
inductive Backlog
  | articles (numbers : List Nat)
  | all
  deriving DecidableEq, Repr

/-- The station record of R1; its address is its key and fixes its kind. -/
structure Station where
  mode : Mode
  state : StationState
  queue : List Entry
  dSeq : Bool
  lastU : Bool
  miss : Nat
  holdOff : Bool
  score : Nat
  detachedFlag : Bool
  backlog : Backlog
  showOwed : Bool
  deriving DecidableEq, Repr

/-- The power-on values of R1. -/
def Station.powerOn : Station :=
  { mode := .off, state := .off, queue := [], dSeq := false, lastU := false, miss := 0, holdOff := false, score := 0,
    detachedFlag := false, backlog := .articles [], showOwed := false }

/-- The visit that is open (R4): the station, whether it is a probe, the characters of the frame sent, and the moment
its reply window ends once the window has opened. -/
structure Visit where
  station : Nat
  probe : Bool
  frame : List Byte
  window : Option Nat
  deriving DecidableEq, Repr

/-- The scale actions of R22 with their arguments, and an action whose code is not in the table. -/
inductive Action
  | select (article : Nat)
  | clear
  | tare
  | ptare (grams : Nat)
  | clrtare
  | zero
  | qty (quantity : Nat)
  | login (clerk : Nat)
  | logout
  | newTicket
  | switch (ticket : Nat)
  | add (stamp : Nat)
  | label (stamp : Nat)
  | voidItem (position : Nat)
  | voidTicket
  | close
  | release (ticket : Nat)
  | next
  | recall
  | skip
  | override (article unitPrice : Nat)
  | unknown (code : Nat)
  deriving DecidableEq, Repr

/-! ## Watch channels (R164) -/

/-- R164. -/
inductive WatchMask
  | exact
  | group16
  | group256
  | any
  deriving DecidableEq, Repr

/-- R164; the order of the constructors is the order of strength of R169. -/
inductive WatchAction
  | note
  | hold
  | block
  deriving DecidableEq, Repr

/-- The record of R164. -/
structure WatchChannel where
  enable : Bool
  onAdd : Bool
  onVoid : Bool
  mask : WatchMask
  article : Nat
  clerk : Nat
  threshold : Nat
  action : WatchAction
  sequential : Bool
  count : Nat
  deriving DecidableEq, Repr

/-- R164, R172. -/
def WatchChannel.powerOn : WatchChannel :=
  { enable := false, onAdd := false, onVoid := false, mask := .any, article := 0, clerk := 0, threshold := 0,
    action := .note, sequential := false, count := 0 }

/-! ## Totals (R173) -/

/-- An article row of R173. -/
structure ArticleRow where
  items : Nat
  voidItems : Nat
  weight : Nat
  value : Nat
  voidValue : Nat
  deriving DecidableEq, Repr

def ArticleRow.clear : ArticleRow := { items := 0, voidItems := 0, weight := 0, value := 0, voidValue := 0 }

/-- A clerk row of R173. -/
structure ClerkRow where
  tickets : Nat
  items : Nat
  voidItems : Nat
  abandoned : Nat
  value : Nat
  voidValue : Nat
  abandonedValue : Nat
  deriving DecidableEq, Repr

def ClerkRow.clear : ClerkRow :=
  { tickets := 0, items := 0, voidItems := 0, abandoned := 0, value := 0, voidValue := 0, abandonedValue := 0 }

/-- A scale row of R173. -/
structure ScaleRow where
  items : Nat
  labels : Nat
  weight : Nat
  value : Nat
  deriving DecidableEq, Repr

def ScaleRow.clear : ScaleRow := { items := 0, labels := 0, weight := 0, value := 0 }

/-- The grand row of R173. -/
structure GrandRow where
  tickets : Nat
  items : Nat
  voidItems : Nat
  abandoned : Nat
  labels : Nat
  value : Nat
  voidValue : Nat
  abandonedValue : Nat
  deriving DecidableEq, Repr

def GrandRow.clear : GrandRow :=
  { tickets := 0, items := 0, voidItems := 0, abandoned := 0, labels := 0, value := 0, voidValue := 0,
    abandonedValue := 0 }

/-- A totals bank of R173. -/
structure Bank where
  period : Nat
  saturated : Bool
  articles : Tbl ArticleRow
  clerks : Tbl ClerkRow
  scales : Tbl ScaleRow
  grand : GrandRow
  deriving DecidableEq, Repr

/-- A clear bank (R174). -/
def Bank.clear : Bank :=
  { period := 0, saturated := false, articles := [], clerks := [], scales := [], grand := .clear }

/-- R173. -/
inductive BankId
  | a
  | b
  deriving DecidableEq, Repr

/-! ## Office Port (R183 to R190) -/

/-- The result codes of R184. -/
inductive ResultCode
  | ok
  | busy
  | unknown
  | badArg
  | notFound
  | wrongState
  | totalsPending
  | inUse
  deriving DecidableEq, Repr

/-- A stored response (R183). -/
structure Response where
  code : Byte
  result : ResultCode
  clamped : Bool
  body : List Byte
  deriving DecidableEq, Repr

/-- The notice kinds of R187. -/
inductive NoticeKind
  | stationUp
  | stationDown
  | stationDetached
  | changeSettled
  | override
  | ticketExpired
  | printFailed
  | queueFull
  | rushOn
  | rushOff
  | watchMatch
  | totalsSaturated
  | restarted
  deriving DecidableEq, Repr

/-- A notice (R187): its subjects are the numbers sent, a value from a list as its place in the list. -/
structure Notice where
  kind : NoticeKind
  time : Nat
  subjects : List Nat
  deriving DecidableEq, Repr

/-- The counter settings of R185; the price lock boundary of R80 is one of them. -/
structure Settings where
  replyWindow : Nat
  settleTimeout : Nat
  increment : Nat
  idleNormal : Nat
  idleRush : Nat
  parkExpiry : Nat
  printTimeout : Nat
  rushThreshold : Nat
  calmThreshold : Nat
  residencyNormal : Nat
  residencyRush : Nat
  priceLock : Nat
  trigger : Nat
  deriving DecidableEq, Repr

/-- The defaults of R185. -/
def Settings.powerOn : Settings :=
  { replyWindow := 4, settleTimeout := 10, increment := 1, idleNormal := 120, idleRush := 45, parkExpiry := 600,
    printTimeout := 15, rushThreshold := 8, calmThreshold := 4, residencyNormal := 60, residencyRush := 120,
    priceLock := 2049, trigger := 1 }

/-- The causes of the last start (R189). -/
inductive StartCause
  | powerOn
  | command
  | pin
  deriving DecidableEq, Repr

end Sys2Proof.Machine
end

