-- ==== Sys2Proof/Machine/State.lean ====
section
/-! DEFINITION. The state of the part: one record per block of 00_scope.md, the pending commands, and the state after
power-on (the values R1, R25, R84, R106, R108, R114, R117, R134, R149, R164, R174, R185 to R187 and R190 give). -/

namespace Sys2Proof.Machine

/-- The Line Controller (R1, R3, R4). -/
structure LineController where
  stations : Tbl Station
  visitPtr : Nat
  probePtr : Nat
  slotCount : Nat
  visit : Option Visit
  deriving DecidableEq, Repr

/-- The Weighing Engine (R25). -/
structure WeighingEngine where
  channels : Tbl Channel
  deriving DecidableEq, Repr

/-- The Article Table (R67). -/
structure ArticleTable where
  articles : Tbl Article
  deriving DecidableEq, Repr

/-- The Copy Directory (R86, R98): maps by scale, changes in flight by rising article number. -/
structure CopyDirectory where
  maps : Tbl (List CopyEntry)
  changes : List Change
  deriving DecidableEq, Repr

/-- The Service Controller (R108, R114, R117, R134): tickets by rising number, print records by scale. -/
structure ServiceController where
  clerks : Tbl Clerk
  tickets : List Ticket
  lastTicket : Nat
  prints : Tbl PrintRecord
  deriving DecidableEq, Repr

/-- The Queue Controller (R149, R157). -/
structure QueueController where
  waiting : List Nat
  nextNumber : Nat
  serving : List (Nat × Nat)
  level : RushLevel
  entered : Nat
  residency : Nat
  residencyPending : Bool
  deriving DecidableEq, Repr

/-- The Watch Unit (R164). -/
structure WatchUnit where
  a : WatchChannel
  b : WatchChannel
  deriving DecidableEq, Repr

/-- The Totals Unit (R173, R174): the live bank, and whether the other is frozen (otherwise it is clear). -/
structure TotalsUnit where
  a : Bank
  b : Bank
  live : BankId
  frozen : Bool
  deriving DecidableEq, Repr

/-- The Office Port (R183 to R191): settings, clock, time base, notices, response, the READY and IRQ lines, the cause
and moment of the last start, whether RESET is held low, and the characters sent in the last SPI transaction. -/
structure OfficePort where
  settings : Settings
  clock : Nat
  clockBase : Nat
  now : Nat
  fifo : List Notice
  overflow : Bool
  response : Option Response
  ready : Bool
  irq : Bool
  startCause : StartCause
  startMoment : Nat
  resetLow : Bool
  spiOut : List Byte
  deriving DecidableEq, Repr

/-- The part. freeCount is the model's own: it is applied to the free value that orders deadlines of one moment. -/
structure State where
  lc : LineController
  we : WeighingEngine
  art : ArticleTable
  cd : CopyDirectory
  sc : ServiceController
  qc : QueueController
  wu : WatchUnit
  tu : TotalsUnit
  op : OfficePort
  freeCount : Nat
  pending : List Instr
  deriving DecidableEq, Repr

/-- The part stops for nothing: the spec gives no fault, and answers every request it refuses with a code. -/
inductive Fault
  deriving DecidableEq, Repr

/-- The refusals of the model. -/
inductive Refusal
  /-- Raised by exec alone, for a command that has no meaning yet. Safe: the model stops where the part goes on. -/
  | notModelled (mnemonic : String)
  deriving DecidableEq, Repr

/-- The part after power-on (R190), with no command pending. -/
def State.reset : State where
  lc := { stations := [], visitPtr := 1, probePtr := 1, slotCount := 1, visit := none }
  we := { channels := [] }
  art := { articles := [] }
  cd := { maps := [], changes := [] }
  sc := { clerks := [], tickets := [], lastTicket := 0, prints := [] }
  qc := { waiting := [], nextNumber := 1, serving := [], level := .normal, entered := 0, residency := 60000,
          residencyPending := true }
  wu := { a := .powerOn, b := .powerOn }
  tu := { a := { Bank.clear with period := 1 }, b := .clear, live := .a, frozen := false }
  op := { settings := .powerOn, clock := 0, clockBase := 0, now := 0, fifo := [], overflow := false, response := none,
          ready := false, irq := false, startCause := .powerOn, startMoment := 0, resetLow := false, spiOut := [] }
  freeCount := 0
  pending := []

end Sys2Proof.Machine
end

