-- ==== Sys2Proof/Machine/Operands.lean ====
section
/-! DEFINITION. Characters: numbers of several characters, list codes, frames and their check, the payloads of line
messages and the fields of responses (R5, R22, R65, R69, R139, R153, R184, R187). -/

namespace Sys2Proof.Machine

/-! ## Numbers -/

/-- A number in n characters, high character first. -/
def chars : Nat → Nat → List Byte
  | 0, _ => []
  | n + 1, v => BitVec.ofNat 8 (v / 256 ^ n) :: chars n v

/-- A signed number in n characters, two's complement. -/
def signedChars (n : Nat) (v : Int) : List Byte := chars n (v % (256 ^ n : Nat)).toNat

/-- The number that characters carry, high character first. -/
def number (l : List Byte) : Nat := l.foldl (fun acc c => acc * 256 + c.toNat) 0

/-- The two's complement value of characters. -/
def signedNumber (l : List Byte) : Int :=
  let v := number l
  if 2 * v < 256 ^ l.length then (v : Int) else (v : Int) - (256 ^ l.length : Nat)

/-- The number at positions i to i + n - 1 of a body, positions counted from 1. -/
def field (body : List Byte) (i n : Nat) : Nat := number ((body.drop (i - 1)).take n)

/-- R184: a mark takes one character. -/
def markChar (b : Bool) : List Byte := chars 1 (if b then 1 else 0)

/-- R184: an absent value is sent with every character 255. -/
def absent (n : Nat) : List Byte := List.replicate n 255

/-- R184: an optional number in n characters. -/
def optionChars (n : Nat) : Option Nat → List Byte
  | some v => chars n v
  | none => absent n

/-- R184: an optional signed number in n characters. -/
def optionSigned (n : Nat) : Option Int → List Byte
  | some v => signedChars n v
  | none => absent n

/-- R184: a count of seconds in 4 characters. -/
def secondsChars (v : Nat) : List Byte := chars 4 (min v 4294967295)

/-- R184: a list of 16 marks, one per scale. -/
def scaleMarks (l : List Nat) : List Byte := (List.range 16).flatMap (fun i => markChar (l.contains (i + 1)))

/-! ## Places in lists (R184: counted from 1) -/

def saleCode : SaleMode → Nat
  | .byWeight => 1
  | .byCount => 2
  | .fixed => 3

def saleOf : Nat → Option SaleMode
  | 1 => some .byWeight
  | 2 => some .byCount
  | 3 => some .fixed
  | _ => none

def articleStateCode : ArticleState → Nat
  | .empty => 1
  | .live => 2
  | .changing => 3
  | .retiring => 4

def motionCode : Motion → Nat
  | .filling => 1
  | .fault => 2
  | .motion => 3
  | .stable => 4

def weightCode : WeightState → Nat
  | .filling => 1
  | .fault => 2
  | .motion => 3
  | .stable => 4
  | .overload => 5
  | .underload => 6

def rangeCode : RangeState → Nat
  | .range1 => 1
  | .range2 => 2

/-- The price state codes of the SHOW payload (R65). -/
def priceCode : PriceState → Nat
  | .noPrice => 0
  | .priced => 1
  | .underMin => 2
  | .priceOver => 3
  | .cancelled => 4

def tareCode : Tare → Nat
  | .noTare => 1
  | .weighed _ => 2
  | .keyed _ => 3
  | .preset _ => 4

/-- The tare value T: 0 where the kind is NONE (R25). -/
def tareValue : Tare → Nat
  | .noTare => 0
  | .weighed g => g
  | .keyed g => g
  | .preset g => g

def kindCode : StationKind → Nat
  | .scale => 1
  | .dispenser => 2
  | .display => 3

def modeCode : Mode → Nat
  | .off => 1
  | .normal => 2
  | .detached => 3
  | .proof => 4

def modeOf : Nat → Option Mode
  | 1 => some .off
  | 2 => some .normal
  | 3 => some .detached
  | 4 => some .proof
  | _ => none

def stationStateCode : StationState → Nat
  | .off => 1
  | .absent => 2
  | .joining => 3
  | .normal => 4
  | .detached => 5
  | .proof => 6

/-- The target state of a SETMODE and the new state of a STATION_UP (R22, R187): NORMAL, DETACHED, PROOF. -/
def targetCode : StationState → Nat
  | .normal => 1
  | .detached => 2
  | .proof => 3
  | .off => 0
  | .absent => 0
  | .joining => 0

def ticketKindCode : TicketKind → Nat
  | .counter => 1
  | .direct => 2

def ticketStateCode : TicketState → Nat
  | .opened _ => 1
  | .held => 2
  | .parked _ => 3
  | .printing _ => 4
  | .printWait => 5

def levelCode : RushLevel → Nat
  | .normal => 1
  | .rush => 2

def changeKindCode : ChangeKind → Nat
  | .change => 1
  | .retire => 2

def bankCode : BankId → Nat
  | .a => 1
  | .b => 2

def causeCode : StartCause → Nat
  | .powerOn => 1
  | .command => 2
  | .pin => 3

def maskCode : WatchMask → Nat
  | .exact => 1
  | .group16 => 2
  | .group256 => 3
  | .any => 4

def maskOf : Nat → Option WatchMask
  | 1 => some .exact
  | 2 => some .group16
  | 3 => some .group256
  | 4 => some .any
  | _ => none

def watchActionCode : WatchAction → Nat
  | .note => 1
  | .hold => 2
  | .block => 3

def watchActionOf : Nat → Option WatchAction
  | 1 => some .note
  | 2 => some .hold
  | 3 => some .block
  | _ => none

/-- The reply codes of R22. -/
def replyNumber : ReplyCode → Nat
  | .ok => 1
  | .unknown => 2
  | .noClerk => 3
  | .noArticle => 4
  | .tareRange => 5
  | .motion => 6
  | .wrongState => 7
  | .zeroRange => 8
  | .badValue => 9
  | .limit => 10
  | .tableFull => 11
  | .held => 12
  | .proofOnly => 13
  | .stale => 14
  | .overload => 15
  | .underMin => 16
  | .priceOver => 17
  | .ticketFull => 18
  | .watched => 19
  | .notSupervisor => 20
  | .locked => 21
  | .busy => 22
  | .full => 23
  | .emptyQueue => 24

/-- The result codes of R184. -/
def resultNumber : ResultCode → Nat
  | .ok => 1
  | .busy => 2
  | .unknown => 3
  | .badArg => 4
  | .notFound => 5
  | .wrongState => 6
  | .totalsPending => 8
  | .inUse => 9

/-- The notice kinds of R187. -/
def noticeNumber : NoticeKind → Nat
  | .stationUp => 1
  | .stationDown => 2
  | .stationDetached => 3
  | .changeSettled => 4
  | .override => 5
  | .ticketExpired => 6
  | .printFailed => 7
  | .queueFull => 8
  | .rushOn => 9
  | .rushOff => 10
  | .watchMatch => 11
  | .totalsSaturated => 12
  | .restarted => 13

/-- R187: an absent subject is sent as 65,535. -/
def optionSubject : Option Nat → Nat
  | some v => v
  | none => 65535

/-! ## Articles (R69) -/

/-- Positions 3 onward of R69, and 4 onward of a FILL. -/
def contentChars (c : Content) : List Byte :=
  chars 1 (saleCode c.mode) ++ chars 3 c.price ++ chars 1 c.markdown ++ chars 2 c.tare ++ chars 1 c.name.length ++ c.name

/-- R79: the content of an EMPTY slot is sent as 0 with name length 0. -/
def emptyContentChars : List Byte := chars 8 0

/-! ## Payloads of downstream messages -/

/-- The presence character of a SHOW (R65). -/
def presence (v : Verdict) : Nat :=
  (if v.gross.isSome then 1 else 0) + (if v.tare.isSome then 2 else 0) + (if v.net.isSome then 4 else 0)
    + (if v.pin.isSome then 8 else 0) + (if v.quantity.isSome then 16 else 0) + (if v.unit.isSome then 32 else 0)
    + (if v.price.isSome then 64 else 0) + (if v.proof then 128 else 0)

/-- The SHOW payload of R65: an absent field is sent as 0. -/
def verdictPayload (scale stamp : Nat) (v : Verdict) : List Byte :=
  chars 1 scale ++ chars 2 stamp ++ chars 1 (weightCode v.weight) ++ chars 1 (presence v) ++ chars 1 (rangeCode v.range)
    ++ signedChars 2 (v.gross.getD 0) ++ chars 2 (v.tare.getD 0) ++ signedChars 2 (v.net.getD 0)
    ++ chars 1 (priceCode v.priceState)
    ++ (match v.pin with
        | some p => chars 2 p.number ++ chars 1 p.revision ++ chars 1 (saleCode p.mode)
        | none => chars 4 0)
    ++ chars 1 (v.quantity.getD 0) ++ chars 3 (v.unit.getD 0) ++ chars 3 (v.price.getD 0)
    ++ (match v.pin with
        | some p => chars 1 p.name.length ++ p.name
        | none => chars 1 0)

/-- The PRINT payload of R139. -/
def labelPayload : Label → List Byte
  | .total tag ticket q clerk count cents time period =>
      chars 1 tag ++ chars 1 1 ++ chars 2 ticket ++ chars 1 (q.getD 255) ++ chars 1 clerk ++ chars 1 count
        ++ chars 4 cents ++ chars 4 time ++ chars 2 period
  | .item tag proof ticket mode amount tare unit price time name =>
      chars 1 tag ++ chars 1 (if proof then 3 else 2) ++ chars 2 ticket ++ chars 1 (saleCode mode)
        ++ chars 1 (if tare.isSome then 1 else 0) ++ chars 2 amount ++ chars 2 (tare.getD 0) ++ chars 3 unit
        ++ chars 3 price ++ chars 4 time ++ chars 1 name.length ++ name

/-- The CALLOUT payload of R153. -/
def calloutPayload (level : RushLevel) (waiting : Nat) (serving : List (Nat × Nat)) : List Byte :=
  chars 1 (levelCode level) ++ chars 1 waiting ++ chars 1 serving.length
    ++ serving.flatMap (fun e => chars 1 e.1 ++ chars 1 e.2)

/-- The payload of a downstream message (R22). -/
def payload : DownMsg → List Byte
  | .fill c => chars 2 c.number ++ chars 1 c.revision ++ contentChars c.content
  | .purge n => chars 2 n
  | .purgeAll => chars 2 0
  | .verdict scale stamp v => verdictPayload scale stamp v
  | .reply action code data => chars 1 action ++ chars 1 (replyNumber code) ++ data
  | .print l => labelPayload l
  | .callout level waiting serving => calloutPayload level waiting serving
  | .setmode target join layout =>
      chars 1 (targetCode target) ++ markChar join
        ++ (match layout with
            | some l => chars 2 l.max ++ chars 2 l.split ++ chars 1 l.e1 ++ chars 1 l.e2
            | none => [])

/-- The kind codes of downstream messages (R22). -/
def downKind : DownMsg → Nat
  | .fill _ => 2
  | .purge _ => 3
  | .purgeAll => 3
  | .verdict _ _ _ => 4
  | .reply _ _ _ => 5
  | .print _ => 6
  | .callout _ _ _ => 7
  | .setmode _ _ _ => 8

/-! ## Frames (R5) -/

/-- One bit of the check: the register moves up by one and takes the polynomial 1021h when its top bit and the data
bit differ. -/
def crcBit (r : BitVec 16) (bit : Bool) : BitVec 16 :=
  if r.msb != bit then (r <<< 1) ^^^ 0x1021#16 else r <<< 1

/-- One character, most significant bit first. -/
def crcChar (r : BitVec 16) (c : Byte) : BitVec 16 :=
  [7, 6, 5, 4, 3, 2, 1, 0].foldl (fun acc i => crcBit acc (c.getLsbD i)) r

/-- The CRC-16 of R5, with initial value 65,535. -/
def crc (l : List Byte) : BitVec 16 := l.foldl crcChar 0xFFFF#16

/-- The flags character of R5. -/
def flagsChar (seq ack hold : Bool) : Byte :=
  BitVec.ofNat 8 ((if seq then 1 else 0) + (if ack then 2 else 0) + (if hold then 4 else 0))

/-- A frame of R5. -/
def frame (address kind : Nat) (flags : Byte) (data : List Byte) : List Byte :=
  let head := chars 1 address ++ chars 1 kind ++ [flags] ++ chars 1 data.length ++ data
  head ++ chars 2 (crc head).toNat

/-- The kind of a station, fixed by its address (00_scope.md, Station address plan). -/
def kindOf (a : Nat) : StationKind :=
  if a = 17 then .dispenser else if a = 18 then .display else .scale

/-- The message of a good reply (R22). -/
inductive UpMsg
  | nil
  | samples (readings : List Reading)
  | action (act : Action)
  | purged (article : Option Nat)
  | printed (tag : Nat) (ok : Bool)
  | take
  deriving DecidableEq, Repr

/-- A good reply: U-seq, D-ack, the hold-off bit and the message (R5). -/
structure Reply where
  uSeq : Bool
  dAck : Bool
  hold : Bool
  msg : UpMsg
  deriving DecidableEq, Repr

/-- The readings of a SAMPLES payload: 4 characters each, status 1 OK or 2 FAULT (R22). -/
def parseReadings : List Byte → Option (List Reading)
  | [] => some []
  | a :: b :: c :: st :: rest =>
      match parseReadings rest with
      | none => none
      | some rs =>
        if st.toNat = 1 then some (.ok (signedNumber [a, b, c]) :: rs)
        else if st.toNat = 2 then some (.fault :: rs) else none
  | _ => none

/-- A SAMPLES payload holds 1 to 4 readings (R22). -/
def parseSamples (data : List Byte) : Option UpMsg :=
  match parseReadings data with
  | some rs => if 1 ≤ rs.length ∧ rs.length ≤ 4 then some (.samples rs) else none
  | none => none

/-- The payload of an ACTION (R22): the code, then the arguments in 2 characters each, the unit price of OVERRIDE in 3;
a code that is not in the table may be followed by any characters. -/
def parseAction : List Byte → Option Action
  | [] => none
  | code :: args =>
    let two (f : Nat → Action) := if args.length = 2 then some (f (number args)) else none
    let bare (act : Action) := if args.length = 0 then some act else none
    match code.toNat with
    | 1 => two .select
    | 2 => bare .clear
    | 3 => bare .tare
    | 4 => two .ptare
    | 5 => bare .clrtare
    | 6 => bare .zero
    | 7 => two .qty
    | 8 => two .login
    | 9 => bare .logout
    | 10 => bare .newTicket
    | 11 => two .switch
    | 12 => two .add
    | 13 => two .label
    | 14 => two .voidItem
    | 15 => bare .voidTicket
    | 16 => bare .close
    | 17 => two .release
    | 18 => bare .next
    | 19 => bare .recall
    | 20 => bare .skip
    | 21 => if args.length = 5 then some (.override (number (args.take 2)) (number (args.drop 2))) else none
    | c => some (.unknown c)

/-- A PURGED payload: an article number 1 to 2048, or 0 for "all" (R22). -/
def parsePurged (data : List Byte) : Option UpMsg :=
  if data.length = 2 then
    if number data = 0 then some (.purged none)
    else if number data ≤ 2048 then some (.purged (some (number data))) else none
  else none

/-- A PRINTED payload: the job tag, then the outcome 1 OK or 2 FAILED (R22). -/
def parsePrinted : List Byte → Option UpMsg
  | [tag, outcome] =>
      if outcome.toNat = 1 then some (.printed tag.toNat true)
      else if outcome.toNat = 2 then some (.printed tag.toNat false) else none
  | _ => none

/-- The message of a kind that the station's kind may send (R22); none where the kind or the payload's form fails. -/
def parseMessage (station : StationKind) (kind : Nat) (data : List Byte) : Option UpMsg :=
  match kind, station with
  | 16, _ => if data = [] then some .nil else none
  | 17, .scale => parseSamples data
  | 18, .scale => (parseAction data).map .action
  | 19, .scale => parsePurged data
  | 20, .scale => parsePrinted data
  | 21, .dispenser => if data = [] then some .take else none
  | _, _ => none

/-- The reply frame of R5 from the visited station; none where it fails its check. Characters after the frame is
complete are discarded (R4). -/
def parseReply (station : Nat) (l : List Byte) : Option Reply :=
  match l with
  | address :: kind :: flags :: len :: rest =>
      let n := len.toNat
      if 120 < n ∨ rest.length < n + 2 then none
      else
        let data := rest.take n
        if number ((rest.drop n).take 2) = (crc (address :: kind :: flags :: len :: data)).toNat
            ∧ address.toNat = station then
          match parseMessage (kindOf station) kind.toNat data with
          | some m => some { uSeq := flags.getLsbD 0, dAck := flags.getLsbD 1, hold := flags.getLsbD 2, msg := m }
          | none => none
        else none
  | _ => none

/-- The action codes of R22. -/
def actionCode : Action → Nat
  | .select _ => 1
  | .clear => 2
  | .tare => 3
  | .ptare _ => 4
  | .clrtare => 5
  | .zero => 6
  | .qty _ => 7
  | .login _ => 8
  | .logout => 9
  | .newTicket => 10
  | .switch _ => 11
  | .add _ => 12
  | .label _ => 13
  | .voidItem _ => 14
  | .voidTicket => 15
  | .close => 16
  | .release _ => 17
  | .next => 18
  | .recall => 19
  | .skip => 20
  | .override _ _ => 21
  | .unknown c => c

/-- The kind codes of upstream messages (R22). -/
def upKind : UpMsg → Nat
  | .nil => 16
  | .samples _ => 17
  | .action _ => 18
  | .purged _ => 19
  | .printed _ _ => 20
  | .take => 21

/-- The arguments of an action as a station lays them out (R22). -/
def actionArgs : Action → List Byte
  | .select n => chars 2 n
  | .clear => []
  | .tare => []
  | .ptare g => chars 2 g
  | .clrtare => []
  | .zero => []
  | .qty n => chars 2 n
  | .login c => chars 2 c
  | .logout => []
  | .newTicket => []
  | .switch t => chars 2 t
  | .add st => chars 2 st
  | .label st => chars 2 st
  | .voidItem p => chars 2 p
  | .voidTicket => []
  | .close => []
  | .release t => chars 2 t
  | .next => []
  | .recall => []
  | .skip => []
  | .override n p => chars 2 n ++ chars 3 p
  | .unknown _ => []

/-- The payload of an upstream message as a station lays it out (R22). -/
def upPayload : UpMsg → List Byte
  | .nil => []
  | .samples rs =>
      rs.flatMap (fun r => match r with
        | .ok v => signedChars 3 v ++ chars 1 1
        | .fault => chars 3 0 ++ chars 1 2)
  | .action act => chars 1 (actionCode act) ++ actionArgs act
  | .purged n => chars 2 (n.getD 0)
  | .printed tag ok => chars 1 tag ++ chars 1 (if ok then 1 else 2)
  | .take => []

/-- The reply frame a station builds (R5, R12): the station's side, for statements and tests. -/
def replyChars (station : Nat) (r : Reply) : List Byte :=
  frame station (upKind r.msg) (flagsChar r.uSeq r.dAck r.hold) (upPayload r.msg)

/-! ## Responses (R183, R187) -/

/-- The characters of a response (R183). -/
def Response.chars (r : Response) : List Byte :=
  [r.code] ++ Machine.chars 1 (resultNumber r.result + (if r.clamped then 128 else 0)) ++ Machine.chars 2 r.body.length
    ++ r.body

/-- The layout of a notice in a response (R187). -/
def noticeChars (n : Notice) : List Byte :=
  chars 1 (noticeNumber n.kind) ++ chars 4 n.time ++ chars 1 n.subjects.length ++ n.subjects.flatMap (chars 4)

end Sys2Proof.Machine
end

