-- ==== Sys2Proof/Machine/Flags.lean ====
section
/-! DEFINITION. The lines and marks the part raises: notices and their overflow mark, IRQ, the stored response and
READY, and the characters sent on SPI (R183, R187, R188). -/

namespace Sys2Proof.Machine

/-- The level of IRQ (R188): the FIFO count at least the trigger level, or the overflow mark set. -/
def irqLevel (op : OfficePort) : Bool := decide (op.settings.trigger ≤ op.fifo.length) || op.overflow

/-- The Office Port with IRQ evaluated again (R188). -/
def OfficePort.evalIrq (op : OfficePort) : OfficePort := { op with irq := irqLevel op }

/-- A notice placed or discarded as the table of R187 says, and IRQ evaluated again (R188). -/
def OfficePort.place (op : OfficePort) (kind : NoticeKind) (subjects : List Nat) : OfficePort :=
  OfficePort.evalIrq
    (if op.overflow then op
     else if op.fifo.length < 32 then
       { op with fifo := op.fifo ++ [{ kind := kind, time := op.clock, subjects := subjects }] }
     else { op with overflow := true })

/-- A notice raised (R187). -/
def State.raise (s : State) (kind : NoticeKind) (subjects : List Nat) : State :=
  { s with op := s.op.place kind subjects }

/-- A response stored in place of any not yet read; READY is asserted (R183). -/
def State.storeResponse (s : State) (r : Response) : State :=
  { s with op := { s.op with response := some r, ready := true } }

/-- The response released; READY is deasserted (R183, R191). -/
def State.releaseResponse (s : State) : State :=
  { s with op := { s.op with response := none, ready := false } }

/-- The characters the part sent in a transaction (R183). -/
def State.sent (s : State) (out : List Byte) : State := { s with op := { s.op with spiOut := out } }

/-- What a host command answers (R183, R184). -/
structure Answer where
  result : ResultCode
  clamped : Bool
  body : List Byte
  deriving DecidableEq, Repr

/-- OK with a body. -/
def Answer.ok (body : List Byte) : Answer := { result := .ok, clamped := false, body := body }

/-- A refusal: every result other than OK has an empty body (R183). -/
def Answer.refuse (r : ResultCode) : Answer := { result := r, clamped := false, body := [] }

/-- OK with an empty body, and the "clamped" mark where a field was clamped (R69, R185). -/
def Answer.clamp (clamped : Bool) : Answer := { result := .ok, clamped := clamped, body := [] }

/-- The end of a command transaction (R183): the response is stored. -/
def State.answer (s : State) (code : Byte) (a : Answer) : State :=
  s.storeResponse { code := code, result := a.result, clamped := a.clamped, body := a.body }

/-- A command transaction (R183) of a command with its body: ignored while RESET is held low (R191); a stated length
above 255 is not executed and answered BAD_ARG; otherwise the command is executed whole and its response stored. The
part sends 255 for every character of the frame. The model's choice (log entry 21), where R191 is silent: a transaction
that straddles an edge of RESET is judged by the level of RESET when its row is taken. -/
def State.transact (s : State) (code : Byte) (body : List Byte) (run : State → State × Answer) : State :=
  if s.op.resetLow then s
  else if 255 < body.length then
    (s.answer code (.refuse .badArg)).sent (List.replicate (3 + body.length) 255)
  else
    let r := run s
    (r.1.answer code r.2).sent (List.replicate (3 + body.length) 255)

end Sys2Proof.Machine
end

