-- ==== Sys2Proof/Machine/Ops.lean ====
section
/-! DEFINITION. The shared operations: access to the records, time, the outbound queues and what is offered to them
(R2, R15 to R22), and a message's taking (R14). -/

namespace Sys2Proof.Machine

/-! ## Access to the records -/

def State.station (s : State) (a : Nat) : Station := Tbl.read .powerOn s.lc.stations a

def State.setStation (s : State) (a : Nat) (r : Station) : State :=
  { s with lc := { s.lc with stations := Tbl.write .powerOn s.lc.stations a r } }

def State.channel (s : State) (a : Nat) : Channel := Tbl.read .powerOn s.we.channels a

def State.setChannel (s : State) (a : Nat) (r : Channel) : State :=
  { s with we := { s.we with channels := Tbl.write .powerOn s.we.channels a r } }

def State.article (s : State) (n : Nat) : Article := Tbl.read .powerOn s.art.articles n

def State.setArticle (s : State) (n : Nat) (r : Article) : State :=
  { s with art := { s.art with articles := Tbl.write .powerOn s.art.articles n r } }

def State.copyMap (s : State) (a : Nat) : List CopyEntry := Tbl.read [] s.cd.maps a

def State.setCopyMap (s : State) (a : Nat) (m : List CopyEntry) : State :=
  { s with cd := { s.cd with maps := Tbl.write [] s.cd.maps a m } }

def State.setChanges (s : State) (l : List Change) : State := { s with cd := { s.cd with changes := l } }

def State.clerk (s : State) (c : Nat) : Clerk := Tbl.read .powerOn s.sc.clerks c

def State.setClerk (s : State) (c : Nat) (r : Clerk) : State :=
  { s with sc := { s.sc with clerks := Tbl.write .powerOn s.sc.clerks c r } }

def State.printRecord (s : State) (a : Nat) : PrintRecord := Tbl.read .powerOn s.sc.prints a

def State.setPrintRecord (s : State) (a : Nat) (r : PrintRecord) : State :=
  { s with sc := { s.sc with prints := Tbl.write .powerOn s.sc.prints a r } }

def State.setTickets (s : State) (l : List Ticket) : State := { s with sc := { s.sc with tickets := l } }

/-- The station addresses 1 to 18, and the scales 1 to 16 (00_scope.md). -/
def stationAddresses : List Nat := (List.range 18).map (· + 1)

def scales : List Nat := (List.range 16).map (· + 1)

def clerkNumbers : List Nat := (List.range 24).map (· + 1)

def isScale (a : Nat) : Bool := 1 ≤ a && a ≤ 16

/-! ## Time (R186) -/

/-- The moment d ms after m: where the 48-bit time base ends, a free value. -/
def moment (m d : Nat) : Nat := if m + d < 2 ^ 48 then m + d else (Config.momentPastRange (m + d)).toNat

def State.setNow (s : State) (m : Nat) : State := { s with op := { s.op with now := m } }

/-- The time base at moment m, if it has not passed it: where an expiry is taken, its deadline has been reached. -/
def State.reach (s : State) (m : Nat) : State := s.setNow (max s.op.now m)

/-- A step with no command: one millisecond of time base passes. -/
def State.idle (s : State) : State := s.setNow (moment s.op.now 1)

/-- Whole seconds left before a deadline, rounded up (R107, R130). -/
def secondsLeft (now deadline : Nat) : Nat := (deadline - now + 999) / 1000

/-! ## Stations (R2, R9, R17) -/

def polled (st : StationState) : Bool :=
  match st with
  | .joining => true
  | .normal => true
  | .detached => true
  | .proof => true
  | .off => false
  | .absent => false

def serving (st : StationState) : Bool :=
  match st with
  | .normal => true
  | .detached => true
  | .proof => true
  | .joining => false
  | .off => false
  | .absent => false

/-- The station is in service (R2). -/
def State.inService (s : State) (a : Nat) : Bool := serving (s.station a).state

def isSetmode : DownMsg → Bool
  | .setmode _ _ _ => true
  | _ => false

def isFill : DownMsg → Bool
  | .fill _ => true
  | _ => false

def isFillOf (n : Nat) : DownMsg → Bool
  | .fill c => c.number == n
  | _ => false

/-- A message of kind PURGE, for one article or for all (R22). -/
def isPurge : DownMsg → Bool
  | .purge _ => true
  | .purgeAll => true
  | _ => false

def isVerdict : DownMsg → Bool
  | .verdict _ _ _ => true
  | _ => false

def isCallout : DownMsg → Bool
  | .callout _ _ _ => true
  | _ => false

def isPrintOf (tag : Nat) : DownMsg → Bool
  | .print (.total t _ _ _ _ _ _ _) => t == tag
  | .print (.item t _ _ _ _ _ _ _ _ _) => t == tag
  | _ => false

/-- Ordinary entries: entries of any kind except SETMODE (R17). -/
def ordinary (q : List Entry) : Nat := (q.filter (fun e => !isSetmode e.msg)).length

/-- Free entries: 8 less the ordinary entries present (R17). -/
def free (q : List Entry) : Nat := 8 - ordinary q

/-- An entry of the kind without a sent mark. -/
def unsent (p : DownMsg → Bool) (e : Entry) : Bool := !e.sent && p e.msg

/-- The first unsent entry of the kind takes the new message, in place (R17, R18). -/
def replaceUnsent (p : DownMsg → Bool) (m : DownMsg) : List Entry → List Entry
  | [] => []
  | e :: rest => if unsent p e then { msg := m, sent := false } :: rest else e :: replaceUnsent p m rest

/-- The first unsent entry of the kind withdrawn (R20, R143). -/
def withdrawUnsent (p : DownMsg → Bool) : List Entry → List Entry
  | [] => []
  | e :: rest => if unsent p e then rest else e :: withdrawUnsent p rest

/-- An entry added at the tail. -/
def append (q : List Entry) (m : DownMsg) : List Entry := q ++ [{ msg := m, sent := false }]

/-- The SHOW of a channel's stored verdict (R65). -/
def State.verdictMsg (s : State) (a : Nat) : DownMsg := .verdict a (s.channel a).stamp (s.channel a).verdict

/-- The CALLOUT of the queue record (R153). -/
def State.calloutMsg (s : State) : DownMsg := .callout s.qc.level s.qc.waiting.length s.qc.serving

/-- A SHOW offered (R18): in place of an unsent SHOW, at the tail, or owed; discarded out of service (R2). -/
def State.offerVerdict (s : State) (a : Nat) : State :=
  if s.inService a then
    let st := s.station a
    if st.queue.any (unsent isVerdict) then
      s.setStation a { st with queue := replaceUnsent isVerdict (s.verdictMsg a) st.queue, showOwed := false }
    else if 0 < free st.queue then
      s.setStation a { st with queue := append st.queue (s.verdictMsg a), showOwed := false }
    else s.setStation a { st with showOwed := true }
  else s

/-- A CALLOUT offered to the display (R18, R153): in place of an unsent CALLOUT or at the tail; discarded out of
service (R2). A CALLOUT always finds room (R18); the test of the free entries acts only in states no run reaches (log
entry 12). -/
def State.offerCallout (s : State) : State :=
  if s.inService 18 then
    let st := s.station 18
    if st.queue.any (unsent isCallout) then
      s.setStation 18 { st with queue := replaceUnsent isCallout s.calloutMsg st.queue }
    else if 0 < free st.queue then s.setStation 18 { st with queue := append st.queue s.calloutMsg }
    else s
  else s

/-- A PRINT or a REPLY offered at the tail (R17). Admission has left room (R15, R138, R145); the test of the free
entries acts only in states no run reaches (log entry 12). -/
def State.offerTail (s : State) (a : Nat) (m : DownMsg) : State :=
  if s.inService a then
    let st := s.station a
    if 0 < free st.queue then s.setStation a { st with queue := append st.queue m } else s
  else s

/-- The REPLY of an action (R22). -/
def State.reply (s : State) (a : Nat) (action : Nat) (code : ReplyCode) (data : List Byte) : State :=
  s.offerTail a (.reply action code data)

/-- A freed ordinary entry refilled, by at most one message (the table of R21). -/
def State.refill (s : State) (a : Nat) : State :=
  let st := s.station a
  if 0 < free st.queue then
    match st.backlog with
    | .all => s.setStation a { st with queue := append st.queue .purgeAll, backlog := .articles [] }
    | .articles (n :: rest) => s.setStation a { st with queue := append st.queue (.purge n), backlog := .articles rest }
    | .articles [] =>
        if st.showOwed then s.setStation a { st with queue := append st.queue (s.verdictMsg a), showOwed := false }
        else s
  else s

/-- The station record with a PURGE "all" offered (R21): unsent FILLs and PURGEs withdrawn, the backlog emptied, the
PURGE "all" at the tail or the marker in the backlog, and a SHOW owed added where an entry is still free. -/
def purgeAllOffered (st : Station) (current : DownMsg) : Station :=
  let q := st.queue.filter (fun e => !(unsent isFill e || unsent isPurge e))
  if 0 < free q then
    let q1 := append q .purgeAll
    if st.showOwed && decide (0 < free q1) then
      { st with queue := append q1 current, backlog := .articles [], showOwed := false }
    else { st with queue := q1, backlog := .articles [] }
  else { st with queue := q, backlog := .all }

/-- A PURGE "all" offered (R21); discarded out of service (R2). -/
def State.offerPurgeAll (s : State) (a : Nat) : State :=
  if s.inService a then s.setStation a (purgeAllOffered (s.station a) (s.verdictMsg a)) else s

/-- The SETMODE fields of a scale, from its metrology configuration (R8). -/
def State.layoutOf (s : State) (a : Nat) : Option ScaleLayout :=
  match kindOf a with
  | .scale =>
      let c := (s.channel a).config
      some { max := c.max, split := c.split, e1 := c.e1, e2 := c.e2 }
  | .dispenser => none
  | .display => none

/-- An in-service SETMODE placed (R17): in place of an unsent SETMODE, otherwise directly behind a sent head, otherwise
at the front. -/
def placeSetmode (m : DownMsg) (q : List Entry) : List Entry :=
  if q.any (unsent isSetmode) then replaceUnsent isSetmode m q
  else
    match q with
    | [] => [{ msg := m, sent := false }]
    | e :: rest => if e.sent then e :: { msg := m, sent := false } :: rest else { msg := m, sent := false } :: e :: rest

/-- The in-service SETMODE with the station's state (R17). -/
def State.offerSetmode (s : State) (a : Nat) : State :=
  let st := s.station a
  s.setStation a { st with queue := placeSetmode (.setmode st.state false (s.layoutOf a)) st.queue }

/-- The join target of R9. -/
def joinTarget (a : Nat) (st : Station) : StationState :=
  match kindOf a with
  | .scale => if st.mode = .proof then .proof else if st.detachedFlag then .detached else .normal
  | .dispenser => .normal
  | .display => .normal

/-- The join SETMODE rewritten with a new target, its sent mark cleared (R9). -/
def retarget (target : StationState) : List Entry → List Entry
  | [] => []
  | e :: rest =>
    match e.msg with
    | .setmode old join layout =>
        if old = target then e :: rest else { msg := .setmode target join layout, sent := false } :: rest
    | _ => e :: rest

/-- R9: while JOINING, the target is recomputed. -/
def State.recomputeJoin (s : State) (a : Nat) : State :=
  let st := s.station a
  if st.state = .joining then s.setStation a { st with queue := retarget (joinTarget a st) st.queue } else s

/-! ## Taking an upstream message (R14, R15) -/

/-- R15: at least 3 free ordinary entries. -/
def State.admits (s : State) (a : Nat) : Bool := decide (3 ≤ free (s.station a).queue)

/-- R14: the last U-seq taken becomes the U-seq of the new message, which differs from it. -/
def State.markTaken (s : State) (a : Nat) : State :=
  let st := s.station a
  s.setStation a { st with lastU := !st.lastU }

/-- A new message from a station of the kind, handed to its owner when it is taken (R14): the station in service, RESET
high, and, for an ACTION or a TAKE, admitted (R15). Otherwise nothing changes and the station repeats it. -/
def State.deliver (s : State) (a : Nat) (fromKind : StationKind) (needRoom : Bool) (owner : State → State) : State :=
  if kindOf a = fromKind ∧ s.inService a = true ∧ s.op.resetLow = false ∧ (needRoom = true → s.admits a = true) then
    owner (s.markTaken a)
  else s

/-- A scale's ACTION delivered. -/
def State.deliverAction (s : State) (a : Nat) (owner : State → State) : State :=
  if isScale a then s.deliver a .scale true owner else s

/-- The clerk logged in at a scale, as the service context mirrors it (R46, R108). -/
def State.clerkAt (s : State) (a : Nat) : Option Nat := (s.channel a).ctx.clerk

end Sys2Proof.Machine
end

