-- ==== Sys2Proof/Machine/Pricing.lean ====
section
/-! DEFINITION. The weight state, the applied tare, the net, the effective unit price, the price and the verdict, and
its evaluation (R34 to R36, R49 to R63). Int division by a positive number is the floor toward minus infinity. -/

namespace Sys2Proof.Machine

/-- The division e of a range state (R34): a channel whose split is 0 always uses e1. -/
def division (c : MetroConfig) (r : RangeState) : Nat :=
  if c.split = 0 then c.e1
  else
    match r with
    | .range1 => c.e1
    | .range2 => c.e2

/-- R35: g_f rounded half up to a whole multiple of e. -/
def grossOf (fine : Int) (e : Nat) : Int := e * ((2 * fine + 10 * e) / (20 * e))

/-- The examination of the range state (R34). -/
def rangeAfter (c : MetroConfig) (r : RangeState) (fine : Int) : RangeState :=
  if c.split = 0 then .range1
  else
    match r with
    | .range1 => if 10 * (c.split : Int) < fine then .range2 else .range1
    | .range2 => if fine ≤ 5 * (c.e1 : Int) then .range1 else .range2

/-- The weight state of R36. -/
def weightState (ch : Channel) : WeightState :=
  let byGross (settled : WeightState) : WeightState :=
    match ch.result with
    | none => .filling
    | some r =>
      if (ch.config.max : Int) + 9 * division ch.config ch.range < r.gross then .overload
      else if r.gross < -(20 * (ch.config.e1 : Int)) then .underload
      else settled
  match ch.motion with
  | .fault => .fault
  | .filling => .filling
  | .motion => byGross .motion
  | .stable => byGross .stable

/-- The weight state shows a gross (R53). -/
def showsWeight : WeightState → Bool
  | .motion => true
  | .stable => true
  | .filling => false
  | .fault => false
  | .overload => false
  | .underload => false

/-- R53: the gross field. -/
def shownGross (ch : Channel) : Option Int :=
  if showsWeight (weightState ch) then ch.result.map (·.gross) else none

/-- R54: T rounded half up to a whole multiple of e. -/
def roundTare (t e : Nat) : Nat := e * ((2 * t + e) / (2 * e))

/-- R54: the applied tare T_a, present when the tare kind is not NONE. -/
def appliedTare (ch : Channel) : Option Nat :=
  match ch.tare with
  | .noTare => none
  | .weighed g => some (roundTare g (division ch.config ch.range))
  | .keyed g => some (roundTare g (division ch.config ch.range))
  | .preset g => some (roundTare g (division ch.config ch.range))

/-- R55: the net N. -/
def shownNet (ch : Channel) : Option Int :=
  (shownGross ch).map (fun g => g - ((appliedTare ch).getD 0 : Nat))

/-- R56: the effective unit price P′. -/
def effectiveUnit (price markdown : Nat) : Nat := (2 * price * (100 - markdown) + 100) / 200

/-- R57: a whole number of cents rounded half up to the increment d. -/
def roundCents (x d : Nat) : Nat := d * ((2 * x + d) / (2 * d))

/-- The price limit of R59 and R60. -/
def priceLimit : Nat := 999999

/-- R59: the price of net grams at P′ cents a kilogram. -/
def weightPrice (net unit d : Nat) : Nat := d * ((2 * net * unit + 1000 * d) / (2000 * d))

/-- PRICE_OVER above the limit, otherwise PRICED (R59, R60). -/
def limited (p : Nat) : PriceState × Option Nat :=
  if priceLimit < p then (.priceOver, none) else (.priced, some p)

/-- R59. -/
def priceByWeight (e1 : Nat) (net : Int) (unit d : Nat) : PriceState × Option Nat :=
  if net < 20 * (e1 : Int) then (.underMin, none) else limited (weightPrice net.toNat unit d)

/-- R58 to R61: the price state and the price, with increment d. -/
def priceOf (ch : Channel) (d : Nat) : PriceState × Option Nat :=
  match ch.ctx.pin with
  | none => if ch.ctx.cancelled then (.cancelled, none) else (.noPrice, none)
  | some p =>
    let unit := effectiveUnit p.content.price p.content.markdown
    match p.content.mode with
    | .byWeight =>
      match shownNet ch with
      | some n => priceByWeight ch.config.e1 n unit d
      | none => (.noPrice, none)
    | .byCount => limited (roundCents (ch.ctx.quantity.getD 0 * unit) d)
    | .fixed => (.priced, some (roundCents unit d))

/-- R56: what a snapshot shows. -/
def pinView (p : Snapshot) : PinView :=
  { number := p.number, revision := p.revision, name := p.content.name, mode := p.content.mode }

/-- R49, R56: the quantity is present when the pinned article's sale mode is BY_COUNT. -/
def shownQuantity (ch : Channel) : Option Nat :=
  match ch.ctx.pin with
  | some p => if p.content.mode = .byCount then ch.ctx.quantity else none
  | none => none

/-- R52: the new verdict, with increment d and the proof mark of R63. -/
def formVerdict (ch : Channel) (d : Nat) (proof : Bool) : Verdict :=
  { weight := weightState ch
    gross := shownGross ch
    range := ch.range
    tare := appliedTare ch
    net := shownNet ch
    pin := ch.ctx.pin.map pinView
    quantity := shownQuantity ch
    unit := ch.ctx.pin.map (fun p => effectiveUnit p.content.price p.content.markdown)
    priceState := (priceOf ch d).1
    price := (priceOf ch d).2
    proof := proof }

/-- R50: the stamp advances by 1, from 65,535 to 0. -/
def nextStamp (n : Nat) : Nat := (n + 1) % 65536

/-- The evaluation of R52: where the new verdict differs it is stored, the stamp advances and a SHOW is offered. -/
def State.evaluate (s : State) (a : Nat) : State :=
  let ch := s.channel a
  let v := formVerdict ch s.op.settings.increment (decide ((s.station a).state = .proof))
  if v = ch.verdict then s
  else (s.setChannel a { ch with verdict := v, stamp := nextStamp ch.stamp }).offerVerdict a

end Sys2Proof.Machine
end

