-- ==== Sys2Proof/Machine/Weighing.lean ====
section
/-! DEFINITION. Readings and weighing actions: SAMPLES, TARE, PTARE, CLRTARE, ZERO, QTY, and STN.CONFIG
(R25 to R48, R64). -/

namespace Sys2Proof.Machine

/-! ## Readings (R28 to R37) -/

/-- The window length W (R26). -/
def windowLength (c : MetroConfig) : Nat := 2 ^ c.k

/-- The median of three readings (R31). -/
def median (x y z : Int) : Int := max (min x y) (min (max x y) z)

/-- R31: the last three OK readings. -/
def joinHistory (h : List Int) (v : Int) : List Int :=
  let h' := h ++ [v]
  h'.drop (h'.length - 3)

/-- R31: the entering value for a history that ends with the newest reading v. -/
def entering (h : List Int) (v : Int) : Int :=
  match h with
  | [x, y, z] => median x y z
  | _ => v

/-- R31: whether the newest reading counts as noise. -/
def isNoise (c : MetroConfig) (h : List Int) (v : Int) : Bool :=
  match h with
  | [x, y, z] => c.spike != 0 && decide ((c.spike : Int) < (median x y z - v).natAbs)
  | _ => false

/-- R30: one value placed at the end; the oldest leaves a full window first. -/
def enterWindow (w : Nat) (l : List Int) (v : Int) : List Int :=
  (if w ≤ l.length then l.drop (l.length + 1 - w) else l) ++ [v]

/-- The spread of the window (R32). -/
def spread (l : List Int) : Int :=
  match l with
  | [] => 0
  | x :: rest => rest.foldl max x - rest.foldl min x

/-- R33: the window sum divided by W, rounded half up. -/
def filterOutput (w : Nat) (l : List Int) : Int := (2 * l.sum + w) / (2 * w)

/-- R32: the pass count after a check. -/
def passAfter (c : MetroConfig) (l : List Int) (pass : Nat) : Nat :=
  if spread l ≤ c.band then min c.count (pass + 1) else 0

/-- R37 step 5: the zero offset follows the load when all six conditions hold. -/
def tracks (ch : Channel) (after : Motion) (f : Int) : Bool :=
  ch.config.tracking && decide (after = .stable) && decide (ch.tare = .noTare) && ch.ctx.pin.isNone
    && decide ((f - ch.zero).natAbs ≤ 5 * ch.config.e1) && decide (f.natAbs ≤ 2 * (ch.config.max / 5))

/-- R33 to R35: g_f, the range state and G from f with the zero offset as it stands. -/
def refreshGross (ch : Channel) (f : Int) : Channel :=
  let fine := f - ch.zero
  let range := rangeAfter ch.config ch.range fine
  { ch with range := range, result := some { f := f, fine := fine, gross := grossOf fine (division ch.config range) } }

/-- One OK reading (R37). -/
def okReading (ch : Channel) (v : Int) : Channel :=
  let history := joinHistory ch.history v
  let noise := if isNoise ch.config history v then min 65535 (ch.noise + 1) else ch.noise
  let w := windowLength ch.config
  let window := enterWindow w ch.window (entering history v)
  if window.length < w then
    { ch with history := history, noise := noise, window := window, motion := .filling, pass := 0, result := none }
  else
    let pass := passAfter ch.config window ch.pass
    let after := if spread window ≤ ch.config.band ∧ pass = ch.config.count then Motion.stable else Motion.motion
    let f := filterOutput w window
    let zero := if tracks ch after f then f else ch.zero
    refreshGross
      { ch with history := history, noise := noise, window := window, motion := after, pass := pass, zero := zero } f

/-- One FAULT reading (R29). -/
def faultReading (ch : Channel) : Channel :=
  { ch with history := [], window := [], pass := 0, motion := .fault, result := none }

/-- One reading (R28). -/
def takeReading (ch : Channel) : Reading → Channel
  | .ok v => okReading ch v
  | .fault => faultReading ch

/-- A taken SAMPLES message: its readings in order, then one evaluation (R28). -/
def State.takeSamples (s : State) (a : Nat) (rs : List Reading) : State :=
  (s.setChannel a (rs.foldl takeReading (s.channel a))).evaluate a

/-! ## Weighing actions (R38 to R42, R64) -/

/-- R45: an accepted action: the channel changes, the verdict is evaluated, then the REPLY OK is offered. -/
def State.weighOk (s : State) (a code : Nat) (ch : Channel) : State :=
  ((s.setChannel a ch).evaluate a).reply a code .ok []

/-- ZERO (R38). -/
def State.takeZero (s : State) (a : Nat) : State :=
  let ch := s.channel a
  match ch.motion, ch.result with
  | .stable, some r =>
      if ch.tare ≠ .noTare then s.reply a 6 .wrongState []
      else if ch.config.max / 5 < r.f.natAbs then s.reply a 6 .zeroRange []
      else s.weighOk a 6 (refreshGross { ch with zero := r.f } r.f)
  | _, _ => s.reply a 6 .motion []

/-- TARE (R40). -/
def State.takeTare (s : State) (a : Nat) : State :=
  let ch := s.channel a
  match ch.motion, ch.result with
  | .stable, some r =>
      if 0 < r.gross ∧ r.gross ≤ ch.config.tareLimit ∧ weightState ch ≠ .overload then
        s.weighOk a 3 { ch with tare := .weighed r.gross.toNat }
      else s.reply a 3 .tareRange []
  | _, _ => s.reply a 3 .motion []

/-- PTARE (the table of R41). -/
def State.takePtare (s : State) (a grams : Nat) : State :=
  let ch := s.channel a
  if grams = 0 then
    match ch.tare with
    | .keyed _ => s.weighOk a 4 { ch with tare := .noTare }
    | .noTare => s.weighOk a 4 ch
    | .weighed _ => s.reply a 4 .wrongState []
    | .preset _ => s.reply a 4 .wrongState []
  else if grams ≤ ch.config.tareLimit then s.weighOk a 4 { ch with tare := .keyed grams }
  else s.reply a 4 .tareRange []

/-- CLRTARE (R42). -/
def State.takeClrtare (s : State) (a : Nat) : State :=
  s.weighOk a 5 { s.channel a with tare := .noTare }

/-- The service context holds a BY_COUNT pin (R64). -/
def countPin (ch : Channel) : Bool :=
  match ch.ctx.pin with
  | some p => decide (p.content.mode = .byCount)
  | none => false

/-- QTY (R64). -/
def State.takeQty (s : State) (a n : Nat) : State :=
  let ch := s.channel a
  if !countPin ch then s.reply a 7 .wrongState []
  else if n < 1 ∨ 99 < n then s.reply a 7 .badValue []
  else s.weighOk a 7 { ch with ctx := { ch.ctx with quantity := some n } }

/-! ## The channel emptied (R47) -/

/-- R47: every field at its power-on value, the configuration kept. -/
def emptied (ch : Channel) : Channel := { Channel.powerOn with config := ch.config }

/-! ## STN.CONFIG (R27) -/

/-- The configuration of an STN.CONFIG body (R26, R184: the station, then the fields in the order of the table); with
split 0 the e2 field is stored as 0. -/
def configOf (body : List Byte) : MetroConfig :=
  { max := field body 2 2, split := field body 4 2, e1 := field body 6 1,
    e2 := if field body 4 2 = 0 then 0 else field body 7 1, k := field body 8 1, band := field body 9 1,
    count := field body 10 1, spike := field body 11 2, tareLimit := field body 13 2, tracking := field body 15 1 = 1 }

/-- The ranges of R26. -/
def configSound (c : MetroConfig) : Bool :=
  1000 ≤ c.max && c.max ≤ 30000 && c.split < c.max && [1, 2, 5, 10].contains c.e1
    && (c.split == 0 || ([2, 5, 10, 20].contains c.e2 && c.e1 < c.e2)) && 1 ≤ c.k && c.k ≤ 4 && 1 ≤ c.band
    && c.band ≤ 100 && 1 ≤ c.count && c.count ≤ 8 && c.spike ≤ 1000 && c.tareLimit ≤ c.max

/-- STN.CONFIG (R27). -/
def State.stnConfig (s : State) (body : List Byte) : State × Answer :=
  if body.length ≠ 15 then (s, .refuse .badArg)
  else
    let a := field body 1 1
    if !isScale a then (s, .refuse .badArg)
    else if (s.station a).state ≠ .off then (s, .refuse .wrongState)
    else if configSound (configOf body) && decide (field body 15 1 ≤ 1) then
      (s.setChannel a { s.channel a with config := configOf body }, .ok [])
    else (s, .refuse .badArg)

/-! ## Meanings -/

def execStnConfig (body : List Byte) (s : State) : Host.Outcome State Fault Refusal :=
  .next (s.transact 32 body (fun t => t.stnConfig body))

def execSamples (scale : Nat) (readings : List Reading) (s : State) : Host.Outcome State Fault Refusal :=
  .next (if isScale scale ∧ 1 ≤ readings.length ∧ readings.length ≤ 4 then
    s.deliver scale .scale false (fun t => t.takeSamples scale readings) else s)

def execTare (scale : Nat) (s : State) : Host.Outcome State Fault Refusal :=
  .next (s.deliverAction scale (fun t => t.takeTare scale))

def execPtare (scale grams : Nat) (s : State) : Host.Outcome State Fault Refusal :=
  .next (s.deliverAction scale (fun t => t.takePtare scale grams))

def execClrtare (scale : Nat) (s : State) : Host.Outcome State Fault Refusal :=
  .next (s.deliverAction scale (fun t => t.takeClrtare scale))

def execZero (scale : Nat) (s : State) : Host.Outcome State Fault Refusal :=
  .next (s.deliverAction scale (fun t => t.takeZero scale))

def execQty (scale quantity : Nat) (s : State) : Host.Outcome State Fault Refusal :=
  .next (s.deliverAction scale (fun t => t.takeQty scale quantity))

end Sys2Proof.Machine
end

