-- ==== Sys2Proof/Machine/Copies.lean ====
section
/-! DEFINITION. Pins, copy maps, changes in flight and their settling, and the emptying of a retired slot (R72 to R78,
R86 to R101): the operations that the articles, the scales and the stations share, and the meanings of CLEAR, SELECT
and PURGED. -/

namespace Sys2Proof.Machine

/-! ## Pins (R44, R93) -/

/-- The article a scale pins. -/
def State.pinned (s : State) (a : Nat) : Option Nat := (s.channel a).ctx.pin.map (·.number)

/-- R44: a PRESET tare goes with its pin; a WEIGHED or KEYED tare stays. -/
def tareAfterPin : Tare → Tare
  | .preset _ => .noTare
  | .noTare => .noTare
  | .weighed g => .weighed g
  | .keyed g => .keyed g

/-- R44: the channel without its pin, its quantity and its PRESET tare. -/
def unpinned (ch : Channel) : Channel :=
  { ch with tare := tareAfterPin ch.tare, ctx := { ch.ctx with pin := none, quantity := none } }

/-- R77: the scale leaves the article's pin set. -/
def State.leavePinSet (s : State) (a n : Nat) : State :=
  let r := s.article n
  s.setArticle n { r with pins := setErase a r.pins }

/-- The pin of a scale taken away without an evaluation (R44, R93), with nothing done where there is none. -/
def State.unpin (s : State) (a : Nat) : State :=
  match s.pinned a with
  | some n => (s.setChannel a (unpinned (s.channel a))).leavePinSet a n
  | none => s

/-- The article whose pin set the scale leaves when it is unpinned. -/
def State.unpinTouches (s : State) (a : Nat) : List Nat := (s.pinned a).toList

/-- The release of a pin on its own (R93, R97): with its evaluation, if there is a pin. -/
def State.releasePin (s : State) (a : Nat) : State :=
  match s.pinned a with
  | some _ => (s.unpin a).evaluate a
  | none => s

/-- The cancellation of a pin (R44, R102 step 1), without its evaluation. -/
def State.cancelPin (s : State) (a : Nat) : State :=
  let t := s.unpin a
  let ch := t.channel a
  t.setChannel a { ch with ctx := { ch.ctx with cancelled := true } }

/-! ## Copy maps (R86 to R92) -/

/-- The map entry of an article. -/
def copyOf (m : List CopyEntry) (n : Nat) : Option CopyEntry := m.find? (fun e => e.article == n)

def withoutCopy (m : List CopyEntry) (n : Nat) : List CopyEntry := m.filter (fun e => e.article != n)

/-- R77: the scale leaves the article's holder set. -/
def State.leaveHolders (s : State) (a n : Nat) : State :=
  let r := s.article n
  s.setArticle n { r with holders := setErase a r.holders }

/-- A copy entry removed; the scale leaves the article's holder set (R90, R91). -/
def State.removeCopy (s : State) (a n : Nat) : State :=
  (s.setCopyMap a (withoutCopy (s.copyMap a) n)).leaveHolders a n

/-- R90: the entry becomes PURGING. -/
def State.markPurging (s : State) (a n : Nat) : State :=
  s.setCopyMap a ((s.copyMap a).map (fun e => if e.article = n then { e with purging := true } else e))

/-- The article of the oldest unsent FILL of a queue. -/
def oldestFill : List Entry → Option Nat
  | [] => none
  | e :: rest =>
    match e.msg, e.sent with
    | .fill c, false => some c.number
    | _, _ => oldestFill rest

/-- A PURGE for one article offered (R20, R90): the state, and the articles that lost the scale as a holder. -/
def State.offerPurge (s : State) (a n : Nat) : State × List Nat :=
  let st := s.station a
  if !s.inService a then (s, [])
  else if st.queue.any (unsent (isFillOf n)) then
    (((s.setStation a { st with queue := withdrawUnsent (isFillOf n) st.queue }).removeCopy a n).refill a, [n])
  else if 0 < free st.queue then
    ((s.setStation a { st with queue := append st.queue (.purge n) }).markPurging a n, [])
  else
    match oldestFill st.queue with
    | some k =>
        (((s.setStation a { st with queue := append (withdrawUnsent isFill st.queue) (.purge n) }).removeCopy a k).markPurging
          a n, [k])
    | none =>
        let backlog := match st.backlog with
          | .articles l => Backlog.articles (l ++ [n])
          | .all => Backlog.all
        ((s.setStation a { st with backlog := backlog }).markPurging a n, [])

/-- R92: the articles a map names. -/
def State.mapTouches (s : State) (a : Nat) : List Nat := (s.copyMap a).map (·.article)

/-- A copy map emptied (R92): the scale leaves the holder set of every article it named. -/
def State.emptyMap (s : State) (a : Nat) : State :=
  ((s.copyMap a).map (·.article)).foldl (fun t n => t.leaveHolders a n) (s.setCopyMap a [])

/-! ## Changes in flight and settling (R75, R78, R98 to R101) -/

def State.changeOf (s : State) (n : Nat) : Option Change := s.cd.changes.find? (fun c => c.article == n)

/-- A change put into the list, by rising article number. -/
def insertChange (c : Change) : List Change → List Change
  | [] => [c]
  | d :: rest => if c.article < d.article then c :: d :: rest else d :: insertChange c rest

/-- R98: the old pins of a change, by rising scale. -/
def State.oldPins (s : State) (c : Change) : List Nat :=
  (s.article c.article).pins.filter
    (fun a => match (s.channel a).ctx.pin with
      | some p => p.number == c.article && p.revision == c.oldRevision
      | none => false)

/-- R100: no remaining holders and no old pins. -/
def State.settled (s : State) (c : Change) : Bool :=
  (s.article c.article).holders.isEmpty && (s.oldPins c).isEmpty

/-- R75: CHANGING becomes LIVE; RETIRING stays. -/
def settledState : ArticleState → ArticleState
  | .changing => .live
  | .retiring => .retiring
  | .live => .live
  | .empty => .empty

/-- The change record removed and the article handed to the Article Table (R75, R101). -/
def State.closeChange (s : State) (n : Nat) : State :=
  let t := s.setChanges (s.cd.changes.filter (fun c => c.article != n))
  let r := t.article n
  t.setArticle n { r with state := settledState r.state }

/-- The CHANGE_SETTLED notice (R101, R102): its mark is 1 normal, 2 forced. -/
def State.noteSettled (s : State) (c : Change) (detached cancelled mark : Nat) : State :=
  s.raise .changeSettled
    [c.article, changeKindCode c.kind, c.oldRevision, (s.article c.article).revision, detached, cancelled, mark]

/-- The settle check of one article (R100, R101). -/
def State.settleCheck (s : State) (n : Nat) : State :=
  match s.changeOf n with
  | some c => if s.settled c then (s.noteSettled c 0 0 1).closeChange n else s
  | none => s

/-- The check of R78: a RETIRING article with nothing left becomes EMPTY. -/
def State.emptyCheck (s : State) (n : Nat) : State :=
  let r := s.article n
  if r.state = .retiring ∧ r.holders = [] ∧ r.pins = [] ∧ r.refs = 0 ∧ s.changeOf n = none then
    s.setArticle n Article.powerOn
  else s

/-- The end of an event that touched articles: the settle checks in increasing article number (R100), then the checks
of R78. -/
def State.finish (s : State) (touched : List Nat) : State :=
  let l := rising touched
  l.foldl State.emptyCheck (l.foldl State.settleCheck s)

/-- PURGEs offered to holders with a VALID entry, in the order given (R99). -/
def State.purgeHolders (s : State) (n : Nat) : List Nat → State × List Nat
  | [] => (s, [])
  | a :: rest =>
    match copyOf (s.copyMap a) n with
    | some e =>
        if e.purging then s.purgeHolders n rest
        else
          let r := s.offerPurge a n
          let r' := r.1.purgeHolders n rest
          (r'.1, r.2 ++ r'.2)
    | none => s.purgeHolders n rest

/-- A change opened (R72, R99) and settled within the event where its condition holds. -/
def State.openChange (s : State) (n : Nat) (kind : ChangeKind) (old : Nat) : State :=
  let c : Change := { article := n, kind := kind, oldRevision := old,
                      deadline := moment s.op.now (1000 * s.op.settings.settleTimeout) }
  let t := s.setChanges (insertChange c s.cd.changes)
  let r := t.purgeHolders n (t.article n).holders
  r.1.finish (n :: r.2)

/-! ## SELECT (R43, R87 to R89, R94, R95) -/

/-- R43: a preset tare above the tare limit refuses a SELECT where the tare kind is NONE or PRESET. -/
def presetRefused (ch : Channel) (preset : Nat) : Bool :=
  match ch.tare with
  | .noTare => decide (ch.config.tareLimit < preset)
  | .preset _ => decide (ch.config.tareLimit < preset)
  | .weighed _ => false
  | .keyed _ => false

/-- R43: the channel with a new pin, on a channel whose earlier pin is gone. -/
def pinnedWith (ch : Channel) (p : Snapshot) : Channel :=
  let tare := match tareAfterPin ch.tare with
    | .noTare => if p.content.tare = 0 then Tare.noTare else .preset p.content.tare
    | .preset g => .preset g
    | .weighed g => .weighed g
    | .keyed g => .keyed g
  { ch with
    tare := tare
    ctx := { ch.ctx with
      pin := some p, quantity := if p.content.mode = .byCount then some 1 else none, cancelled := false } }

/-- The pin taken: the snapshot placed and the scale in the article's pin set (R95 step 2). -/
def State.pin (s : State) (a : Nat) (p : Snapshot) : State :=
  let t := s.setChannel a (pinnedWith (s.channel a) p)
  let r := t.article p.number
  t.setArticle p.number { r with pins := setInsert a r.pins }

/-- R19: the entries the action still needs: one for the REPLY, and one for the SHOW unless an unsent SHOW is waiting. -/
def stillNeeded (q : List Entry) : Nat := if q.any (unsent isVerdict) then 1 else 2

/-- The last VALID entry of a map (R88). -/
def lastValid (m : List CopyEntry) : Option Nat := ((m.filter (fun e => !e.purging)).getLast?).map (·.article)

/-- The copy map at a SELECT in NORMAL (R87 to R89, R95 step 3): the state, and the articles that lost the scale as a
holder. -/
def State.updateCopy (s : State) (a : Nat) (p : Snapshot) : State × List Nat :=
  let m := s.copyMap a
  let st := s.station a
  match copyOf m p.number with
  | some e => (s.setCopyMap a (e :: withoutCopy m p.number), [])
  | none =>
    if (s.changeOf p.number).isSome then (s, [])
    else if st.backlog = .all then (s, [])
    else if 32 ≤ m.length then
      match lastValid m with
      | some k => s.offerPurge a k
      | none => (s, [])
    else if free st.queue < stillNeeded st.queue + 1 then (s, [])
    else
      let t := (s.setStation a { st with queue := append st.queue (.fill p) }).setCopyMap a
        ({ article := p.number, revision := p.revision, purging := false } :: m)
      let r := t.article p.number
      (t.setArticle p.number { r with holders := setInsert a r.holders }, [])

/-- An article that a SELECT takes: LIVE or CHANGING (R68, R94). -/
def selectable (r : Article) : Option Content :=
  match r.state with
  | .live => r.content
  | .changing => r.content
  | .empty => none
  | .retiring => none

/-- A SELECT that proceeds (R95). -/
def State.carrySelect (s : State) (a : Nat) (p : Snapshot) : State :=
  let touched := s.unpinTouches a
  let t := (s.unpin a).pin a p
  let r := if (t.station a).state = .normal then t.updateCopy a p else (t, [])
  ((r.1.evaluate a).reply a 1 .ok (chars 2 p.number ++ chars 1 p.revision)).finish (touched ++ r.2)

/-- SELECT (R94, R95). -/
def State.takeSelect (s : State) (a n : Nat) : State :=
  match s.clerkAt a with
  | none => s.reply a 1 .noClerk []
  | some _ =>
    if n < 1 ∨ 2048 < n then s.reply a 1 .noArticle []
    else
      match selectable (s.article n) with
      | none => s.reply a 1 .noArticle []
      | some c =>
        if presetRefused (s.channel a) c.tare then s.reply a 1 .tareRange []
        else s.carrySelect a { number := n, revision := (s.article n).revision, content := c }

/-! ## CLEAR and PURGED (R91, R96) -/

/-- CLEAR (R96). -/
def State.takeClear (s : State) (a : Nat) : State :=
  ((s.releasePin a).reply a 2 .ok []).finish (s.unpinTouches a)

/-- A taken PURGED (R91). -/
def State.takePurged (s : State) (a : Nat) (n : Option Nat) : State :=
  match n with
  | none => s
  | some k =>
    match copyOf (s.copyMap a) k with
    | some e => if e.purging then (s.removeCopy a k).finish [k] else s
    | none => s

/-! ## Meanings -/

def execSelect (scale article : Nat) (s : State) : Host.Outcome State Fault Refusal :=
  .next (s.deliverAction scale (fun t => t.takeSelect scale article))

def execClear (scale : Nat) (s : State) : Host.Outcome State Fault Refusal :=
  .next (s.deliverAction scale (fun t => t.takeClear scale))

def execPurged (scale : Nat) (article : Option Nat) (s : State) : Host.Outcome State Fault Refusal :=
  .next (if isScale scale then s.deliver scale .scale false (fun t => t.takePurged scale article) else s)

end Sys2Proof.Machine
end

