-- ==== Sys2Proof/Machine/Articles.lean ====
section
/-! DEFINITION. The Article Table's requests: ART.CREATE, ART.CHANGE, ART.RETIRE, ART.READ and OVERRIDE
(R67 to R85). -/

namespace Sys2Proof.Machine

/-- The live bank (R174). -/
def State.liveBank (s : State) : Bank :=
  match s.tu.live with
  | .a => s.tu.a
  | .b => s.tu.b

/-- An article number of 1 to 2048. -/
def articleNumber (n : Nat) : Bool := 1 ≤ n && n ≤ 2048

/-- R69: a body of the layout, with an article number of 1 to 2048. -/
def contentForm (body : List Byte) : Bool :=
  10 ≤ body.length && body.length == 10 + field body 10 1 && articleNumber (field body 1 2)

/-- R69: the content of a body, the markdown clamped; none where another field is outside its accepted range. -/
def contentOf (body : List Byte) : Option Content :=
  let name := body.drop 10
  match saleOf (field body 3 1) with
  | none => none
  | some mode =>
    if 1 ≤ field body 4 3 ∧ field body 4 3 ≤ 99999 ∧ field body 8 2 ≤ 9999 ∧ 1 ≤ name.length ∧ name.length ≤ 24
        ∧ (name.all (fun c => 32 ≤ c.toNat && c.toNat ≤ 126)) = true then
      some { name := name, mode := mode, price := field body 4 3, markdown := min (field body 7 1) 90,
             tare := field body 8 2 }
    else none

/-- R69: a markdown of 91 to 255 is clamped. -/
def contentClamped (body : List Byte) : Bool := decide (90 < field body 7 1)

/-- R73: the revision is raised by 1, from 255 to 0. -/
def nextRevision (r : Nat) : Nat := (r + 1) % 256

/-- ART.CREATE (R70). -/
def State.artCreate (s : State) (body : List Byte) : State × Answer :=
  if !contentForm body then (s, .refuse .badArg)
  else
    let n := field body 1 2
    if (s.article n).state ≠ .empty then (s, .refuse .inUse)
    else if Tbl.read ArticleRow.clear s.liveBank.articles n ≠ ArticleRow.clear then (s, .refuse .totalsPending)
    else
      match contentOf body with
      | none => (s, .refuse .badArg)
      | some c =>
          (s.setArticle n { s.article n with state := .live, content := some c, revision := 1 },
            .clamp (contentClamped body))

/-- A change taken: the record updated, then the change opened (R71, R72, R82). -/
def State.changeArticle (s : State) (n : Nat) (c : Content) : State :=
  let r := s.article n
  (s.setArticle n { r with state := .changing, content := some c, revision := nextRevision r.revision }).openChange n
    .change r.revision

/-- ART.CHANGE (R71). -/
def State.artChange (s : State) (body : List Byte) : State × Answer :=
  if !contentForm body then (s, .refuse .badArg)
  else
    let n := field body 1 2
    match (s.article n).state with
    | .empty => (s, .refuse .notFound)
    | .changing => (s, .refuse .busy)
    | .retiring => (s, .refuse .wrongState)
    | .live =>
      match contentOf body with
      | none => (s, .refuse .badArg)
      | some c => (s.changeArticle n c, .clamp (contentClamped body))

/-- ART.RETIRE (R74). -/
def State.artRetire (s : State) (body : List Byte) : State × Answer :=
  if body.length ≠ 2 ∨ !articleNumber (field body 1 2) then (s, .refuse .badArg)
  else
    let n := field body 1 2
    let r := s.article n
    match r.state with
    | .empty => (s, .refuse .notFound)
    | .changing => (s, .refuse .busy)
    | .retiring => (s, .refuse .wrongState)
    | .live => ((s.setArticle n { r with state := .retiring }).openChange n .retire r.revision, .ok [])

/-- The response body of ART.READ (R79); the fields of a change in flight are absent where none is open (R184). -/
def State.articleChars (s : State) (n : Nat) : List Byte :=
  let r := s.article n
  chars 2 n ++ chars 1 (articleStateCode r.state) ++ chars 1 r.revision
    ++ (match r.content with
        | some c => contentChars c
        | none => emptyContentChars)
    ++ chars 2 r.refs ++ scaleMarks r.holders ++ scaleMarks r.pins
    ++ (match s.changeOf n with
        | some c => markChar true ++ chars 1 c.oldRevision ++ chars 1 (secondsLeft s.op.now c.deadline)
        | none => markChar false ++ absent 1 ++ absent 1)

/-- ART.READ (R79). -/
def State.artRead (s : State) (body : List Byte) : State × Answer :=
  if body.length ≠ 2 ∨ !articleNumber (field body 1 2) then (s, .refuse .badArg)
  else (s, .ok (s.articleChars (field body 1 2)))

/-- The reply of an OVERRIDE that fails a check of R81, for the clerk c; none where all checks pass. -/
def State.overrideRefused (s : State) (a n price : Nat) : Option ReplyCode :=
  if (s.station a).state = .proof then some .proofOnly
  else
    match s.clerkAt a with
    | none => some .noClerk
    | some c =>
      if !(s.clerk c).supervisor then some .notSupervisor
      else if !articleNumber n then some .noArticle
      else if s.op.settings.priceLock ≤ n then some .locked
      else
        match (s.article n).state with
        | .empty => some .noArticle
        | .retiring => some .noArticle
        | .changing => some .busy
        | .live => if price < 1 ∨ 99999 < price then some .badValue else none

/-- OVERRIDE (R81, R82): the notice follows the change it opens, the REPLY follows the notice. -/
def State.takeOverride (s : State) (a n price : Nat) : State :=
  match s.overrideRefused a n price, (s.article n).content with
  | none, some c =>
      let revision := nextRevision (s.article n).revision
      ((s.changeArticle n { c with price := price }).raise .override
          [n, revision, c.price, price, a, optionSubject (s.clerkAt a)]).reply a 21 .ok
        (chars 2 n ++ chars 1 revision)
  | none, none => s.reply a 21 .noArticle []
  | some code, _ => s.reply a 21 code []

/-! ## Meanings -/

def execArtCreate (body : List Byte) (s : State) : Host.Outcome State Fault Refusal :=
  .next (s.transact 16 body (fun t => t.artCreate body))

def execArtChange (body : List Byte) (s : State) : Host.Outcome State Fault Refusal :=
  .next (s.transact 17 body (fun t => t.artChange body))

def execArtRetire (body : List Byte) (s : State) : Host.Outcome State Fault Refusal :=
  .next (s.transact 18 body (fun t => t.artRetire body))

def execArtRead (body : List Byte) (s : State) : Host.Outcome State Fault Refusal :=
  .next (s.transact 19 body (fun t => t.artRead body))

def execOverride (scale article unitPrice : Nat) (s : State) : Host.Outcome State Fault Refusal :=
  .next (s.deliverAction scale (fun t => t.takeOverride scale article unitPrice))

end Sys2Proof.Machine
end

