-- ==== Sys2Proof/Machine/Totals.lean ====
section
/-! DEFINITION. The Totals Unit: posting, abandoned accounting, saturation, and TOT.CLOSE, TOT.READ and TOT.CLEAR
(R173 to R182). -/

namespace Sys2Proof.Machine

/-! ## Rows (R173, R177) -/

def countMax : Nat := 4294967295

def valueMax : Nat := 281474976710655

/-- R177: an addition to one field; a sum past the maximum takes the maximum. -/
def satAdd (top x d : Nat) : Nat := min top (x + d)

/-- R177: the addition is held at the maximum. -/
def holds (top x d : Nat) : Bool := decide (top < x + d)

def ArticleRow.plus (r d : ArticleRow) : ArticleRow :=
  { items := satAdd countMax r.items d.items
    voidItems := satAdd countMax r.voidItems d.voidItems
    weight := satAdd valueMax r.weight d.weight
    value := satAdd valueMax r.value d.value
    voidValue := satAdd valueMax r.voidValue d.voidValue }

def ArticleRow.held (r d : ArticleRow) : Bool :=
  holds countMax r.items d.items || holds countMax r.voidItems d.voidItems || holds valueMax r.weight d.weight
    || holds valueMax r.value d.value || holds valueMax r.voidValue d.voidValue

def ClerkRow.plus (r d : ClerkRow) : ClerkRow :=
  { tickets := satAdd countMax r.tickets d.tickets
    items := satAdd countMax r.items d.items
    voidItems := satAdd countMax r.voidItems d.voidItems
    abandoned := satAdd countMax r.abandoned d.abandoned
    value := satAdd valueMax r.value d.value
    voidValue := satAdd valueMax r.voidValue d.voidValue
    abandonedValue := satAdd valueMax r.abandonedValue d.abandonedValue }

def ClerkRow.held (r d : ClerkRow) : Bool :=
  holds countMax r.tickets d.tickets || holds countMax r.items d.items || holds countMax r.voidItems d.voidItems
    || holds countMax r.abandoned d.abandoned || holds valueMax r.value d.value
    || holds valueMax r.voidValue d.voidValue || holds valueMax r.abandonedValue d.abandonedValue

def ScaleRow.plus (r d : ScaleRow) : ScaleRow :=
  { items := satAdd countMax r.items d.items
    labels := satAdd countMax r.labels d.labels
    weight := satAdd valueMax r.weight d.weight
    value := satAdd valueMax r.value d.value }

def ScaleRow.held (r d : ScaleRow) : Bool :=
  holds countMax r.items d.items || holds countMax r.labels d.labels || holds valueMax r.weight d.weight
    || holds valueMax r.value d.value

def GrandRow.plus (r d : GrandRow) : GrandRow :=
  { tickets := satAdd countMax r.tickets d.tickets
    items := satAdd countMax r.items d.items
    voidItems := satAdd countMax r.voidItems d.voidItems
    abandoned := satAdd countMax r.abandoned d.abandoned
    labels := satAdd countMax r.labels d.labels
    value := satAdd valueMax r.value d.value
    voidValue := satAdd valueMax r.voidValue d.voidValue
    abandonedValue := satAdd valueMax r.abandonedValue d.abandonedValue }

def GrandRow.held (r d : GrandRow) : Bool :=
  holds countMax r.tickets d.tickets || holds countMax r.items d.items || holds countMax r.voidItems d.voidItems
    || holds countMax r.abandoned d.abandoned || holds countMax r.labels d.labels || holds valueMax r.value d.value
    || holds valueMax r.voidValue d.voidValue || holds valueMax r.abandonedValue d.abandonedValue

/-- A posting or accounting under way: the bank, and the rows (kind and index) that held an addition. -/
structure Posting where
  bank : Bank
  held : List (Nat × Nat)
  deriving DecidableEq, Repr

def heldRow (kind index : Nat) (h : Bool) (l : List (Nat × Nat)) : List (Nat × Nat) :=
  if h then l ++ [(kind, index)] else l

/-- Additions to the rows. The row kinds are numbered as R187 numbers them: article, clerk, scale, grand. -/
def Posting.addArticle (p : Posting) (n : Nat) (d : ArticleRow) : Posting :=
  let r := Tbl.read ArticleRow.clear p.bank.articles n
  { bank := { p.bank with articles := Tbl.write ArticleRow.clear p.bank.articles n (r.plus d) }
    held := heldRow 1 n (r.held d) p.held }

def Posting.addClerk (p : Posting) (n : Nat) (d : ClerkRow) : Posting :=
  let r := Tbl.read ClerkRow.clear p.bank.clerks n
  { bank := { p.bank with clerks := Tbl.write ClerkRow.clear p.bank.clerks n (r.plus d) }
    held := heldRow 2 n (r.held d) p.held }

def Posting.addScale (p : Posting) (n : Nat) (d : ScaleRow) : Posting :=
  let r := Tbl.read ScaleRow.clear p.bank.scales n
  { bank := { p.bank with scales := Tbl.write ScaleRow.clear p.bank.scales n (r.plus d) }
    held := heldRow 3 n (r.held d) p.held }

def Posting.addGrand (p : Posting) (d : GrandRow) : Posting :=
  { bank := { p.bank with grand := p.bank.grand.plus d }
    held := heldRow 4 0 (p.bank.grand.held d) p.held }

/-! ## The additions of R175 and R176 -/

/-- The weight an item adds: its net for a BY_WEIGHT item, nothing otherwise. -/
def itemWeight (i : Item) : Nat := if i.mode = .byWeight then i.net.getD 0 else 0

/-- One item of a posted ticket (the table of R175). -/
def Posting.addItem (p : Posting) (clerk : Nat) (i : Item) : Posting :=
  if i.voided then
    ((p.addArticle i.article { ArticleRow.clear with voidItems := 1, voidValue := i.price }).addClerk clerk
      { ClerkRow.clear with voidItems := 1, voidValue := i.price }).addGrand
      { GrandRow.clear with voidItems := 1, voidValue := i.price }
  else
    (((p.addArticle i.article { ArticleRow.clear with items := 1, weight := itemWeight i, value := i.price }).addClerk clerk
      { ClerkRow.clear with items := 1, value := i.price }).addScale i.scale
      { ScaleRow.clear with items := 1, weight := itemWeight i, value := i.price }).addGrand
      { GrandRow.clear with items := 1, value := i.price }

/-- A printed ticket (R175), printed at the scale. -/
def Posting.addTicket (p : Posting) (t : Ticket) (scale : Nat) : Posting :=
  let q := t.items.foldl (fun acc i => acc.addItem t.clerk i) p
  ((q.addClerk t.clerk { ClerkRow.clear with tickets := 1 }).addScale scale { ScaleRow.clear with labels := 1 }).addGrand
    { GrandRow.clear with tickets := 1, labels := 1 }

/-- An abandoned ticket (R176). -/
def Posting.addAbandoned (p : Posting) (t : Ticket) : Posting :=
  (p.addClerk t.clerk { ClerkRow.clear with abandoned := 1, abandonedValue := t.total }).addGrand
    { GrandRow.clear with abandoned := 1, abandonedValue := t.total }

/-- The first row held, in the order article, clerk, scale, grand rows, and by index within a kind (R177). -/
def firstHeld : List (Nat × Nat) → Option (Nat × Nat)
  | [] => none
  | x :: rest =>
    match firstHeld rest with
    | none => some x
    | some y => if y.1 < x.1 ∨ (y.1 = x.1 ∧ y.2 < x.2) then some y else some x

def State.setLiveBank (s : State) (b : Bank) : State :=
  match s.tu.live with
  | .a => { s with tu := { s.tu with a := b } }
  | .b => { s with tu := { s.tu with b := b } }

/-- A posting or accounting on the live bank (R175 to R177): where a field was held, the SATURATED mark is set, and
TOTALS_SATURATED is raised if it was clear. cause is 1 POSTING, 2 ABANDONED. -/
def State.account (s : State) (cause ticket : Nat) (add : Posting → Posting) : State :=
  let b := s.liveBank
  let p := add { bank := b, held := [] }
  match firstHeld p.held with
  | none => s.setLiveBank p.bank
  | some (kind, index) =>
      let t := s.setLiveBank { p.bank with saturated := true }
      if b.saturated then t
      else t.raise .totalsSaturated [bankCode s.tu.live, b.period, cause, ticket, kind, index]

/-- R175. -/
def State.post (s : State) (t : Ticket) (scale : Nat) : State :=
  s.account 1 t.number (fun p => p.addTicket t scale)

/-- R176. -/
def State.accountAbandoned (s : State) (t : Ticket) : State :=
  s.account 2 t.number (fun p => p.addAbandoned t)

/-! ## Host commands (R178 to R180) -/

def otherBank : BankId → BankId
  | .a => .b
  | .b => .a

def TotalsUnit.bank (tu : TotalsUnit) : BankId → Bank
  | .a => tu.a
  | .b => tu.b

def TotalsUnit.setBank (tu : TotalsUnit) (i : BankId) (b : Bank) : TotalsUnit :=
  match i with
  | .a => { tu with a := b }
  | .b => { tu with b := b }

/-- R178: period number p + 1, or 0 when p is 65,535. -/
def nextPeriod (p : Nat) : Nat := (p + 1) % 65536

/-- TOT.CLOSE (R178). -/
def State.totClose (s : State) (body : List Byte) : State × Answer :=
  if body.length ≠ 0 then (s, .refuse .badArg)
  else if s.tu.frozen then (s, .refuse .busy)
  else
    let old := s.tu.live
    let new := otherBank old
    let p := (s.tu.bank old).period
    let tu := { (s.tu.setBank new { s.tu.bank new with period := nextPeriod p }) with live := new, frozen := true }
    ({ s with tu := tu },
      .ok (chars 1 (bankCode old) ++ chars 2 p ++ chars 1 (bankCode new) ++ chars 2 (nextPeriod p)))

/-- The fields of an article row (R173, R179), counts first as the row table of R173 has them: the model's choice where
"the order of R173" may also be that of its list of meanings (log entry 22). -/
def articleRowChars (r : ArticleRow) : List Byte :=
  chars 4 r.items ++ chars 4 r.voidItems ++ chars 6 r.weight ++ chars 6 r.value ++ chars 6 r.voidValue

/-- The fields of a clerk row (R173, R179), counts first: the model's choice (log entry 22). -/
def clerkRowChars (r : ClerkRow) : List Byte :=
  chars 4 r.tickets ++ chars 4 r.items ++ chars 4 r.voidItems ++ chars 4 r.abandoned ++ chars 6 r.value
    ++ chars 6 r.voidValue ++ chars 6 r.abandonedValue

/-- The fields of a scale row (R173, R179), counts first: the model's choice (log entry 22). -/
def scaleRowChars (r : ScaleRow) : List Byte :=
  chars 4 r.items ++ chars 4 r.labels ++ chars 6 r.weight ++ chars 6 r.value

/-- The fields of the grand row (R173, R179), counts first: the model's choice (log entry 22). -/
def grandRowChars (r : GrandRow) : List Byte :=
  chars 4 r.tickets ++ chars 4 r.items ++ chars 4 r.voidItems ++ chars 4 r.abandoned ++ chars 4 r.labels
    ++ chars 6 r.value ++ chars 6 r.voidValue ++ chars 6 r.abandonedValue

/-- The fields of a requested row (R179), in the order of log entry 22; none where the row kind or the index is outside its
accepted values. -/
def Bank.rowChars (b : Bank) (kind index : Nat) : Option (List Byte) :=
  match kind with
  | 1 => if 1 ≤ index ∧ index ≤ 2048 then some (articleRowChars (Tbl.read .clear b.articles index)) else none
  | 2 => if 1 ≤ index ∧ index ≤ 24 then some (clerkRowChars (Tbl.read .clear b.clerks index)) else none
  | 3 => if 1 ≤ index ∧ index ≤ 16 then some (scaleRowChars (Tbl.read .clear b.scales index)) else none
  | 4 => if index = 0 then some (grandRowChars b.grand) else none
  | _ => none

/-- TOT.READ (R179). -/
def State.totRead (s : State) (body : List Byte) : State × Answer :=
  let role := field body 1 1
  let kind := field body 2 1
  let index := field body 3 2
  let which := if role = 1 then s.tu.live else otherBank s.tu.live
  let b := s.tu.bank which
  if body.length ≠ 4 ∨ ¬ (role = 1 ∨ role = 2) then (s, .refuse .badArg)
  else
    match b.rowChars kind index with
    | none => (s, .refuse .badArg)
    | some row =>
      if role = 2 ∧ s.tu.frozen = false then (s, .refuse .notFound)
      else
        (s, .ok (chars 1 (bankCode which) ++ chars 1 role ++ chars 2 b.period ++ markChar b.saturated ++ chars 1 kind
          ++ chars 2 index ++ row))

/-- TOT.CLEAR (R180). -/
def State.totClear (s : State) (body : List Byte) : State × Answer :=
  if body.length ≠ 0 then (s, .refuse .badArg)
  else if s.tu.frozen then
    let which := otherBank s.tu.live
    ({ s with tu := { (s.tu.setBank which Bank.clear) with frozen := false } },
      .ok (chars 1 (bankCode which) ++ chars 2 (s.tu.bank which).period))
  else (s, .refuse .wrongState)

/-! ## Meanings -/

def execTotClose (body : List Byte) (s : State) : Host.Outcome State Fault Refusal :=
  .next (s.transact 112 body (fun t => t.totClose body))

def execTotRead (body : List Byte) (s : State) : Host.Outcome State Fault Refusal :=
  .next (s.transact 113 body (fun t => t.totRead body))

def execTotClear (body : List Byte) (s : State) : Host.Outcome State Fault Refusal :=
  .next (s.transact 114 body (fun t => t.totClear body))

end Sys2Proof.Machine
end

