-- ==== Sys2Proof/Machine/Watch.lean ====
section
/-! DEFINITION. The Watch Unit: matching, sequential mode, outcomes, match counts and notices, WCH.SET and WCH.READ
(R164 to R172). -/

namespace Sys2Proof.Machine

/-- The events of R170. -/
inductive WatchEvent
  | add
  | label
  | void
  deriving DecidableEq, Repr

def watchEventCode : WatchEvent → Nat
  | .add => 1
  | .label => 2
  | .void => 3

/-- R167 item 2: ADD covers ADD and LABEL, VOID covers VOID_ITEM. -/
def kindMatches (w : WatchChannel) : WatchEvent → Bool
  | .add => w.onAdd
  | .label => w.onAdd
  | .void => w.onVoid

/-- R167 item 3. -/
def maskMatches (w : WatchChannel) (n : Nat) : Bool :=
  match w.mask with
  | .exact => n == w.article
  | .group16 => n / 16 == w.article / 16
  | .group256 => n / 256 == w.article / 256
  | .any => true

/-- R167 items 1 to 5. -/
def watchMatches (w : WatchChannel) (ev : WatchEvent) (article price clerk : Nat) : Bool :=
  w.enable && kindMatches w ev && maskMatches w article && (w.clerk == 0 || w.clerk == clerk)
    && decide (w.threshold ≤ price)

/-- R164: sequential mode is in force while channel B is enabled and its sequential switch is on. -/
def sequentialInForce (wu : WatchUnit) : Bool := wu.b.enable && wu.b.sequential

/-- R169: a HOLD contributes NOTE at a LABEL. -/
def contributed (ev : WatchEvent) (act : WatchAction) : WatchAction :=
  match ev, act with
  | .label, .hold => .note
  | _, x => x

/-- The effective actions of the channels that match (R167 to R169), the A-seen mark as it stood before the event. -/
structure WatchResult where
  a : Option WatchAction
  b : Option WatchAction
  deriving DecidableEq, Repr

def watchResult (wu : WatchUnit) (ev : WatchEvent) (article price clerk : Nat) (aSeen : Bool) : WatchResult :=
  { a := if watchMatches wu.a ev article price clerk then
           some (if sequentialInForce wu then .note else contributed ev wu.a.action)
         else none
    b := if watchMatches wu.b ev article price clerk && (!sequentialInForce wu || aSeen) then
           some (contributed ev wu.b.action)
         else none }

def WatchResult.has (r : WatchResult) (x : WatchAction) : Bool := r.a == some x || r.b == some x

/-- R169: the strongest effective action; none where the event passes unwatched. -/
def WatchResult.outcome (r : WatchResult) : Option WatchAction :=
  if r.has .block then some .block else if r.has .hold then some .hold else if r.has .note then some .note else none

/-- R168: an A match in sequential mode sets the mark. -/
def marksA (wu : WatchUnit) (r : WatchResult) : Bool := sequentialInForce wu && r.a.isSome

def raiseCount (w : WatchChannel) (matched : Bool) : WatchChannel :=
  if matched then { w with count := min 65535 (w.count + 1) } else w

/-- R170: the match count of every matching channel rises at the evaluation. -/
def State.countMatches (s : State) (r : WatchResult) : State :=
  { s with wu := { a := raiseCount s.wu.a r.a.isSome, b := raiseCount s.wu.b r.b.isSome } }

/-- R170: one WATCH_MATCH notice per match, A before B, with the event's outcome: 1 REFUSED, 2 HELD, 3 DONE. -/
def State.noteMatches (s : State) (r : WatchResult) (ev : WatchEvent)
    (outcome scale clerk ticket article price position : Nat) : State :=
  let one (t : State) (channel : Nat) (x : Option WatchAction) : State :=
    match x with
    | some act =>
        t.raise .watchMatch
          [channel, watchEventCode ev, watchActionCode act, outcome, scale, clerk, ticket, article, price, position]
    | none => t
  one (one s 1 r.a) 2 r.b

/-! ## Host commands (R165, R171) -/

/-- R164: the article numbers accepted for a mask. -/
def maskArticle (m : WatchMask) (n : Nat) : Bool :=
  match m with
  | .exact => 1 ≤ n && n ≤ 2048
  | .group16 => n ≤ 2048
  | .group256 => n ≤ 2048
  | .any => n == 0

/-- The configuration of a WCH.SET body (R165), with match count 0; none where a field is outside its accepted
values. -/
def watchOf (body : List Byte) : Option WatchChannel :=
  match maskOf (field body 4 1), watchActionOf (field body 11 1) with
  | some mask, some act =>
    if (field body 1 1 = 1 ∨ field body 1 1 = 2) ∧ field body 2 1 ≤ 1 ∧ field body 3 1 ≤ 3
        ∧ maskArticle mask (field body 5 2) = true ∧ field body 7 1 ≤ 24 ∧ field body 8 3 ≤ 999999
        ∧ field body 12 1 ≤ 1 ∧ ¬ (field body 1 1 = 1 ∧ field body 12 1 = 1) then
      some { enable := field body 2 1 == 1, onAdd := field body 3 1 % 2 == 1, onVoid := field body 3 1 / 2 == 1,
             mask := mask, article := field body 5 2, clerk := field body 7 1, threshold := field body 8 3,
             action := act, sequential := field body 12 1 == 1, count := 0 }
    else none
  | _, _ => none

/-- WCH.SET (R165). -/
def State.wchSet (s : State) (body : List Byte) : State × Answer :=
  if body.length ≠ 12 then (s, .refuse .badArg)
  else
    match watchOf body with
    | none => (s, .refuse .badArg)
    | some w =>
      if field body 1 1 = 1 then ({ s with wu := { s.wu with a := w } }, .ok [])
      else ({ s with wu := { s.wu with b := w } }, .ok [])

/-- Positions 2 to 12 of R165. -/
def watchChars (w : WatchChannel) : List Byte :=
  markChar w.enable ++ chars 1 ((if w.onAdd then 1 else 0) + (if w.onVoid then 2 else 0)) ++ chars 1 (maskCode w.mask)
    ++ chars 2 w.article ++ chars 1 w.clerk ++ chars 3 w.threshold ++ chars 1 (watchActionCode w.action)
    ++ markChar w.sequential

/-- The number of tickets whose A-seen mark is set (R171). -/
def State.aSeenCount (s : State) : Nat := (s.sc.tickets.filter (·.aSeen)).length

/-- WCH.READ (R171); for channel A the sequential mode's field is absent (R184). -/
def State.wchRead (s : State) (body : List Byte) : State × Answer :=
  if body.length ≠ 1 then (s, .refuse .badArg)
  else if field body 1 1 = 1 then
    (s, .ok (watchChars s.wu.a ++ chars 2 s.wu.a.count ++ absent 1 ++ chars 1 s.aSeenCount))
  else if field body 1 1 = 2 then
    (s, .ok (watchChars s.wu.b ++ chars 2 s.wu.b.count ++ markChar (sequentialInForce s.wu) ++ chars 1 s.aSeenCount))
  else (s, .refuse .badArg)

/-! ## Meanings -/

def execWchSet (body : List Byte) (s : State) : Host.Outcome State Fault Refusal :=
  .next (s.transact 96 body (fun t => t.wchSet body))

def execWchRead (body : List Byte) (s : State) : Host.Outcome State Fault Refusal :=
  .next (s.transact 97 body (fun t => t.wchRead body))

end Sys2Proof.Machine
end

