-- ==== Sys2Proof/Machine/Service.lean ====
section
/-! DEFINITION. Clerks and service tickets: logins, the life of a ticket up to its printing, and the host commands on
clerks and tickets (R108 to R133). -/

namespace Sys2Proof.Machine

/-! ## The rush level as the Service Controller reads it (R118, R126) -/

/-- The clerk limit of the level in force (R118, R157). -/
def State.clerkLimit (s : State) : Nat :=
  match s.qc.level with
  | .normal => 1
  | .rush => 2

/-- The idle timeout of the level in force, in milliseconds (R126, R157). -/
def State.idleTimeout (s : State) : Nat :=
  match s.qc.level with
  | .normal => 1000 * s.op.settings.idleNormal
  | .rush => 1000 * s.op.settings.idleRush

/-- The idle deadline of a ticket whose last activity is now (R126). -/
def State.idleDeadline (s : State) : Nat := moment s.op.now s.idleTimeout

/-- The expiry deadline of a ticket that parks now (R126). -/
def State.parkDeadline (s : State) : Nat := moment s.op.now (1000 * s.op.settings.parkExpiry)

/-! ## The ticket table (R114, R117) -/

/-- The ticket with a number. -/
def State.ticketOf (s : State) (n : Nat) : Option Ticket := s.sc.tickets.find? (fun t => t.number == n)

/-- A ticket in place of the one with its number. -/
def replaceTicket (t : Ticket) (l : List Ticket) : List Ticket := l.map (fun x => if x.number = t.number then t else x)

/-- A new ticket put into the table, by rising number. -/
def insertTicket (t : Ticket) : List Ticket → List Ticket
  | [] => [t]
  | x :: rest => if t.number < x.number then t :: x :: rest else x :: insertTicket t rest

def State.putTicket (s : State) (t : Ticket) : State := s.setTickets (replaceTicket t s.sc.tickets)

/-- R114: 64 records. -/
def State.tableFull (s : State) : Bool := decide (64 ≤ s.sc.tickets.length)

/-- R117: the first number after the last assigned, counting 1 to 999 and wrapping, that no ticket holds. -/
def State.freshTicketNumber (s : State) : Nat :=
  (((List.range 999).map (fun i => (s.sc.lastTicket + i) % 999 + 1)).find?
    (fun n => (s.ticketOf n).isNone)).getD 1

/-- The ticket is OPEN or HELD. -/
def openOrHeld (t : Ticket) : Bool :=
  match t.state with
  | .opened _ => true
  | .held => true
  | .parked _ => false
  | .printing _ => false
  | .printWait => false

/-- R118 check 3: the clerk owns as many COUNTER tickets in state OPEN or HELD as the clerk limit allows. -/
def State.atLimit (s : State) (c : Nat) : Bool :=
  decide (s.clerkLimit ≤ (s.sc.tickets.filter (fun t => t.clerk == c && t.kind == .counter && openOrHeld t)).length)

/-- A free record takes a ticket (R117). -/
def State.openTicket (s : State) (t : Ticket) : State :=
  { s with sc := { s.sc with tickets := insertTicket t s.sc.tickets, lastTicket := t.number } }

/-- The COUNTER ticket that NEW and NEXT open (R118). -/
def State.counterTicket (s : State) (c : Nat) (q : Option Nat) : Ticket :=
  { number := s.freshTicketNumber, kind := .counter, queueNumber := q, clerk := c, state := .opened s.idleDeadline,
    items := [], total := 0, openedAt := s.op.clock, lastActivity := s.op.now, aSeen := false }

/-! ## Active tickets and logins (R108, R112, R113, R120) -/

/-- R46: the service context of a scale with its clerk and active ticket. -/
def State.mirror (s : State) (a : Nat) (c active : Option Nat) : State :=
  let ch := s.channel a
  s.setChannel a { ch with ctx := { ch.ctx with clerk := c, activeTicket := active } }

/-- R120: a clerk's active ticket, and the service context of the scale where the clerk is logged in. -/
def State.setActive (s : State) (c : Nat) (active : Option Nat) : State :=
  let r := s.clerk c
  let t := s.setClerk c { r with active := active }
  match r.scale with
  | some a => t.mirror a (some c) active
  | none => t

/-- R108: the clerk's active ticket, as the table holds it. -/
def State.activeOf (s : State) (c : Nat) : Option Ticket := (s.clerk c).active.bind s.ticketOf

/-- R120: where the ticket was its owner's active ticket, the active ticket becomes absent. -/
def State.deactivate (s : State) (t : Ticket) : State :=
  if (s.clerk t.clerk).active = some t.number then s.setActive t.clerk none else s

/-- R113: the clerk of a scale is logged out; the clerk's own record keeps its active ticket. -/
def State.logoutScale (s : State) (a : Nat) : State :=
  match s.clerkAt a with
  | some c => (s.setClerk c { s.clerk c with scale := none }).mirror a none none
  | none => s

/-- R113: a logout at which the pin is released (R97), with its evaluation. -/
def State.logoutRelease (s : State) (a : Nat) : State :=
  match s.clerkAt a with
  | some _ => (s.logoutScale a).releasePin a
  | none => s

/-- The article whose pin such a logout releases. -/
def State.logoutTouches (s : State) (a : Nat) : List Nat :=
  match s.clerkAt a with
  | some _ => s.unpinTouches a
  | none => []

/-- LOGIN of an enrolled clerk who is not logged in at the scale (R112). -/
def State.carryLogin (s : State) (a c : Nat) : State :=
  let from1 := (s.clerk c).scale
  let t1 := match from1 with
    | some b => s.logoutRelease b
    | none => s
  let touched1 := match from1 with
    | some b => s.logoutTouches b
    | none => []
  let t2 := t1.logoutRelease a
  let active := (t2.clerk c).active
  let t3 := (t2.setClerk c { t2.clerk c with scale := some a }).mirror a (some c) active
  (t3.reply a 8 .ok (chars 2 (active.getD 0))).finish (touched1 ++ t1.logoutTouches a)

/-- LOGIN (R112). -/
def State.takeLogin (s : State) (a c : Nat) : State :=
  if c < 1 ∨ 24 < c ∨ (s.clerk c).enrolled = false then s.reply a 8 .noClerk []
  else if s.clerkAt a = some c then s.reply a 8 .ok (chars 2 ((s.clerk c).active.getD 0))
  else s.carryLogin a c

/-- LOGOUT (R113). -/
def State.takeLogout (s : State) (a : Nat) : State :=
  ((s.logoutRelease a).reply a 9 .ok []).finish (s.logoutTouches a)

/-! ## Removal and parking (R125, R126) -/

/-- R125 step 5, for one item. -/
def State.dropRef (s : State) (i : Item) : State :=
  let r := s.article i.article
  s.setArticle i.article { r with refs := r.refs - 1 }

/-- Steps 2 to 6 of R125. The queue number needs no step of its own: whether it is free is read from the table. -/
def State.removeTicket (s : State) (t : Ticket) : State :=
  let u := (s.setTickets (s.sc.tickets.filter (fun x => x.number != t.number))).deactivate t
  (rising (t.items.map (·.article))).foldl State.emptyCheck (t.items.foldl State.dropRef u)

/-- A removal as abandoned (R125). -/
def State.abandon (s : State) (t : Ticket) : State := (s.accountAbandoned t).removeTicket t

/-- A ticket parks (R126). -/
def State.park (s : State) (t : Ticket) : State :=
  (s.putTicket { t with state := .parked s.parkDeadline }).deactivate t

/-- R126: last activity renewed and idle deadline set, the ticket OPEN. -/
def State.renewed (s : State) (t : Ticket) : Ticket := { t with state := .opened s.idleDeadline, lastActivity := s.op.now }

/-- A HELD ticket returns to OPEN (R128). -/
def State.releaseTicket (s : State) (t : Ticket) : State := s.putTicket (s.renewed t)

/-! ## Opening and switching (R118, R119) -/

/-- The checks that NEW and NEXT share (R118, R154 checks 1 to 4); none where they pass. -/
def State.openingRefused (s : State) (a : Nat) : Option ReplyCode :=
  match s.clerkAt a with
  | none => some .noClerk
  | some c =>
    if (s.station a).state = .proof then some .proofOnly
    else if s.atLimit c then some .limit
    else if s.tableFull then some .tableFull
    else none

/-- NEW (R118). -/
def State.takeNew (s : State) (a : Nat) : State :=
  match s.openingRefused a, s.clerkAt a with
  | none, some c =>
      let t := s.counterTicket c none
      ((s.openTicket t).setActive c (some t.number)).reply a 10 .ok (chars 2 t.number)
  | none, none => s.reply a 10 .noClerk []
  | some code, _ => s.reply a 10 code []

/-- The ticket after a SWITCH to it (the table of R119). -/
def State.switched (s : State) (t : Ticket) : Ticket :=
  match t.state with
  | .opened _ => s.renewed t
  | .parked _ => s.renewed t
  | .held => t
  | .printWait => t
  | .printing _ => t

def isPrinting (t : Ticket) : Bool :=
  match t.state with
  | .printing _ => true
  | .opened _ => false
  | .held => false
  | .parked _ => false
  | .printWait => false

def isParked (t : Ticket) : Bool :=
  match t.state with
  | .parked _ => true
  | .opened _ => false
  | .held => false
  | .printing _ => false
  | .printWait => false

/-- A SWITCH of clerk c that passes checks 1 and 2 of R119. -/
def State.switchTo (s : State) (a c n : Nat) : State :=
  match s.ticketOf n with
  | none => s.reply a 11 .wrongState []
  | some t =>
    if t.clerk ≠ c ∨ isPrinting t = true then s.reply a 11 .wrongState []
    else if isParked t ∧ s.atLimit c = true then s.reply a 11 .limit []
    else
      let u := s.switched t
      ((s.putTicket u).setActive c (some n)).reply a 11 .ok
        (chars 2 n ++ chars 1 (ticketStateCode u.state) ++ chars 4 u.total)

/-- SWITCH (R119). -/
def State.takeSwitch (s : State) (a n : Nat) : State :=
  match s.clerkAt a with
  | none => s.reply a 11 .noClerk []
  | some c => if (s.station a).state = .proof then s.reply a 11 .proofOnly [] else s.switchTo a c n

/-! ## Items (R115, R121 to R124) -/

/-- R122: the code a verdict that does not allow an item is refused with; none where it allows one. -/
def verdictRefused (v : Verdict) : Option ReplyCode :=
  let byPrice : Option ReplyCode :=
    match v.priceState with
    | .priced => none
    | .underMin => some .underMin
    | .priceOver => some .priceOver
    | .noPrice => some .noArticle
    | .cancelled => some .noArticle
  match v.pin with
  | none => some .noArticle
  | some p =>
    match p.mode, v.weight with
    | .byWeight, .filling => some .motion
    | .byWeight, .fault => some .motion
    | .byWeight, .motion => some .motion
    | .byWeight, .overload => some .overload
    | .byWeight, .underload => some .underMin
    | .byWeight, .stable => byPrice
    | .byCount, _ => byPrice
    | .fixed, _ => byPrice

/-- R115: the item that a snapshot and a verdict make, weighed at scale a. -/
def itemOf (p : Snapshot) (v : Verdict) (a : Nat) : Item :=
  { article := p.number
    revision := p.revision
    mode := p.content.mode
    net := if p.content.mode = .byWeight then v.net.map Int.toNat else none
    tare := if p.content.mode = .byWeight then v.tare else none
    quantity := if p.content.mode = .byCount then v.quantity else none
    unit := v.unit.getD 0
    price := v.price.getD 0
    scale := a
    voided := false }

/-- What the checks of stamp and verdict leave (R121 checks 4 and 5, R145 checks 2 and 3). -/
inductive ItemCheck
  | refused (code : ReplyCode)
  | item (snapshot : Snapshot) (item : Item)
  deriving DecidableEq, Repr

def State.itemCheck (s : State) (a stamp : Nat) : ItemCheck :=
  let ch := s.channel a
  if stamp ≠ ch.stamp then .refused .stale
  else
    match verdictRefused ch.verdict, ch.ctx.pin with
    | some code, _ => .refused code
    | none, none => .refused .noArticle
    | none, some p => .item p (itemOf p ch.verdict a)

/-- The article's reference count rises by 1 (R76). -/
def State.addRef (s : State) (n : Nat) : State :=
  let r := s.article n
  s.setArticle n { r with refs := r.refs + 1 }

/-- The ticket after an addition (R123 steps 1, 2 and 5; R168). -/
def State.withItem (s : State) (t : Ticket) (i : Item) (hold marks : Bool) : Ticket :=
  let u := { t with items := t.items ++ [i], total := t.total + i.price, aSeen := t.aSeen || marks }
  if hold then { u with state := .held } else s.renewed u

/-- An ADD that passes every check (R123). -/
def State.carryAdd (s : State) (a : Nat) (t : Ticket) (i : Item) (hold marks : Bool) : State :=
  let u := s.withItem t i hold marks
  let touched := s.unpinTouches a
  ((((s.putTicket u).addRef i.article).releasePin a).reply a 12 .ok
    (chars 2 u.number ++ chars 4 u.total ++ chars 1 u.items.length ++ chars 1 (ticketStateCode u.state))).finish touched

/-- Check 7 of R121 and what follows from it (R166 to R170). -/
def State.watchedAdd (s : State) (a : Nat) (t : Ticket) (i : Item) : State :=
  let r := watchResult s.wu .add i.article i.price t.clerk t.aSeen
  let marks := marksA s.wu r
  let u := s.countMatches r
  match r.outcome with
  | some .block => (u.reply a 12 .watched []).noteMatches r .add 1 a t.clerk t.number i.article i.price 0
  | some .hold =>
      (u.carryAdd a t i true marks).noteMatches r .add 2 a t.clerk t.number i.article i.price (t.items.length + 1)
  | some .note =>
      (u.carryAdd a t i false marks).noteMatches r .add 3 a t.clerk t.number i.article i.price (t.items.length + 1)
  | none => u.carryAdd a t i false marks

/-- Checks 3 to 6 of R121 for an OPEN ticket. -/
def State.addTo (s : State) (a stamp : Nat) (t : Ticket) : State :=
  if (s.station a).state = .proof then s.reply a 12 .proofOnly []
  else
    match s.itemCheck a stamp with
    | .refused code => s.reply a 12 code []
    | .item _ i => if 24 ≤ t.items.length then s.reply a 12 .ticketFull [] else s.watchedAdd a t i

/-- ADD (R121). -/
def State.takeAdd (s : State) (a stamp : Nat) : State :=
  match s.clerkAt a with
  | none => s.reply a 12 .noClerk []
  | some c =>
    match s.activeOf c with
    | none => s.reply a 12 .wrongState []
    | some t =>
      match t.state with
      | .opened _ => s.addTo a stamp t
      | .held => s.reply a 12 .held []
      | .printWait => s.reply a 12 .wrongState []
      | .parked _ => s.reply a 12 .wrongState []
      | .printing _ => s.reply a 12 .wrongState []

/-- The items with the one at a position VOIDED, positions counted from 1. -/
def voidAt : List Item → Nat → List Item
  | [], _ => []
  | i :: rest, 1 => { i with voided := true } :: rest
  | i :: rest, p => i :: voidAt rest (p - 1)

/-- The ACTIVE item at a position (R124 check 4). -/
def activeItem (l : List Item) (p : Nat) : Option Item :=
  if p = 0 then none
  else
    match l[p - 1]? with
    | some i => if i.voided then none else some i
    | none => none

/-- The ticket after a void (R124 steps 1 and 3; R168). -/
def State.withVoid (s : State) (t : Ticket) (i : Item) (p : Nat) (hold marks : Bool) : Ticket :=
  let u := { t with items := voidAt t.items p, total := t.total - i.price, aSeen := t.aSeen || marks }
  if hold then { u with state := .held }
  else
    match t.state with
    | .opened _ => s.renewed u
    | .held => u
    | .parked _ => u
    | .printing _ => u
    | .printWait => u

/-- A VOID_ITEM that passes every check (R124). -/
def State.carryVoid (s : State) (a : Nat) (t : Ticket) (i : Item) (p : Nat) (hold marks : Bool) : State :=
  let u := s.withVoid t i p hold marks
  (s.putTicket u).reply a 14 .ok (chars 2 u.number ++ chars 4 u.total ++ chars 1 (ticketStateCode u.state))

/-- Check 5 of R124 and what follows from it (R166 to R170). -/
def State.watchedVoid (s : State) (a : Nat) (t : Ticket) (i : Item) (p : Nat) : State :=
  let r := watchResult s.wu .void i.article i.price t.clerk t.aSeen
  let marks := marksA s.wu r
  let u := s.countMatches r
  match r.outcome with
  | some .block => (u.reply a 14 .watched []).noteMatches r .void 1 a t.clerk t.number i.article i.price 0
  | some .hold => (u.carryVoid a t i p true marks).noteMatches r .void 2 a t.clerk t.number i.article i.price p
  | some .note => (u.carryVoid a t i p false marks).noteMatches r .void 3 a t.clerk t.number i.article i.price p
  | none => u.carryVoid a t i p false marks

/-- The clerk's active ticket where it is OPEN or HELD (R124 check 2, R127 check 2). -/
def State.openActive (s : State) (c : Nat) : Option Ticket := (s.activeOf c).filter openOrHeld

/-- VOID_ITEM (R124). -/
def State.takeVoidItem (s : State) (a p : Nat) : State :=
  match s.clerkAt a with
  | none => s.reply a 14 .noClerk []
  | some c =>
    match s.openActive c with
    | none => s.reply a 14 .wrongState []
    | some t =>
      if (s.station a).state = .proof then s.reply a 14 .proofOnly []
      else
        match activeItem t.items p with
        | none => s.reply a 14 .badValue []
        | some i => s.watchedVoid a t i p

/-- VOID_TICKET (R127). -/
def State.takeVoidTicket (s : State) (a : Nat) : State :=
  match s.clerkAt a with
  | none => s.reply a 15 .noClerk []
  | some c =>
    match s.openActive c with
    | none => s.reply a 15 .wrongState []
    | some t =>
      if (s.station a).state = .proof then s.reply a 15 .proofOnly []
      else (s.abandon t).reply a 15 .ok (chars 2 t.number)

/-- RELEASE (R128). -/
def State.takeRelease (s : State) (a n : Nat) : State :=
  match s.clerkAt a with
  | none => s.reply a 17 .noClerk []
  | some c =>
    if (s.station a).state = .proof then s.reply a 17 .proofOnly []
    else if (s.clerk c).supervisor = false then s.reply a 17 .notSupervisor []
    else
      match s.ticketOf n with
      | none => s.reply a 17 .wrongState []
      | some t => if t.state = .held then (s.releaseTicket t).reply a 17 .ok (chars 2 n) else s.reply a 17 .wrongState []

/-! ## Host commands on clerks (R109 to R111) -/

/-- CLK.ENROL (R109). -/
def State.clkEnrol (s : State) (body : List Byte) : State × Answer :=
  let c := field body 1 1
  if body.length ≠ 2 ∨ c < 1 ∨ 24 < c ∨ 1 < field body 2 1 then (s, .refuse .badArg)
  else (s.setClerk c { s.clerk c with enrolled := true, supervisor := field body 2 1 == 1 }, .ok [])

/-- The tickets a clerk owns, by rising number. -/
def State.ownedBy (s : State) (c : Nat) : List Ticket := s.sc.tickets.filter (fun t => t.clerk == c)

/-- CLK.REMOVE of an enrolled clerk who owns no ticket (R110). -/
def State.removeClerk (s : State) (c : Nat) : State :=
  match (s.clerk c).scale with
  | some a => ((s.logoutRelease a).setClerk c Clerk.powerOn).finish (s.logoutTouches a)
  | none => s.setClerk c Clerk.powerOn

/-- CLK.REMOVE (R110). -/
def State.clkRemove (s : State) (body : List Byte) : State × Answer :=
  let c := field body 1 1
  if body.length ≠ 1 ∨ c < 1 ∨ 24 < c then (s, .refuse .badArg)
  else if (s.clerk c).enrolled = false then (s, .refuse .notFound)
  else if s.ownedBy c ≠ [] then (s, .refuse .inUse)
  else (s.removeClerk c, .ok [])

/-- The response body of CLK.READ (R111). -/
def State.clerkChars (s : State) (c : Nat) : List Byte :=
  let r := s.clerk c
  let owned := s.ownedBy c
  markChar r.enrolled ++ markChar r.supervisor ++ chars 1 (r.scale.getD 0) ++ chars 2 (r.active.getD 0)
    ++ chars 1 owned.length
    ++ owned.flatMap (fun t => chars 2 t.number ++ chars 1 (ticketKindCode t.kind) ++ chars 1 (ticketStateCode t.state))

/-- CLK.READ (R111). -/
def State.clkRead (s : State) (body : List Byte) : State × Answer :=
  let c := field body 1 1
  if body.length ≠ 1 ∨ c < 1 ∨ 24 < c then (s, .refuse .badArg) else (s, .ok (s.clerkChars c))

/-! ## Host commands on tickets (R128 to R131) -/

/-- The seconds left before the deadline a ticket carries, rounded up; 0 in HELD and PRINT_WAIT (R130). -/
def ticketSecondsLeft (now : Nat) (t : Ticket) : Nat :=
  match t.state with
  | .opened m => secondsLeft now m
  | .parked m => secondsLeft now m
  | .printing job => secondsLeft now job.deadline
  | .held => 0
  | .printWait => 0

/-- The items of a list in position order, with all fields of R115, the first at position p. -/
def itemsChars : Nat → List Item → List Byte
  | _, [] => []
  | p, i :: rest =>
      chars 1 p ++ chars 2 i.article ++ chars 1 i.revision ++ chars 1 (saleCode i.mode) ++ optionChars 4 i.net
        ++ optionChars 4 i.tare ++ optionChars 1 i.quantity ++ chars 4 i.unit ++ chars 3 i.price ++ chars 1 i.scale
        ++ chars 1 (if i.voided then 2 else 1) ++ itemsChars (p + 1) rest

/-- The print scale and job tag of a PRINTING ticket (R130); absent in the other states (R184). -/
def jobChars (t : Ticket) : List Byte :=
  match t.state with
  | .printing job => chars 1 job.scale ++ chars 1 job.tag
  | .opened _ => absent 2
  | .held => absent 2
  | .parked _ => absent 2
  | .printWait => absent 2

/-- The response body of TKT.READ of one ticket (R130). -/
def ticketChars (now : Nat) (t : Ticket) : List Byte :=
  chars 2 t.number ++ chars 1 (ticketKindCode t.kind) ++ optionChars 1 t.queueNumber ++ chars 1 t.clerk
    ++ chars 1 (ticketStateCode t.state) ++ chars 4 t.total ++ chars 1 t.items.length ++ chars 4 t.openedAt
    ++ secondsChars ((now - t.lastActivity) / 1000) ++ secondsChars (ticketSecondsLeft now t) ++ jobChars t
    ++ markChar t.aSeen ++ itemsChars 1 t.items

/-- The response body of the ticket directory (R131). -/
def State.directoryChars (s : State) : List Byte :=
  chars 1 s.sc.tickets.length
    ++ s.sc.tickets.flatMap (fun t => chars 2 t.number ++ chars 1 (ticketKindCode t.kind) ++ chars 1 t.clerk
        ++ chars 1 (ticketStateCode t.state) ++ chars 4 t.total)

/-- TKT.READ (R130, R131). -/
def State.tktRead (s : State) (body : List Byte) : State × Answer :=
  let n := field body 1 2
  if body.length ≠ 2 ∨ 999 < n then (s, .refuse .badArg)
  else if n = 0 then (s, .ok s.directoryChars)
  else
    match s.ticketOf n with
    | none => (s, .refuse .notFound)
    | some t => (s, .ok (ticketChars s.op.now t))

/-- TKT.CANCEL (R129). -/
def State.tktCancel (s : State) (body : List Byte) : State × Answer :=
  let n := field body 1 2
  if body.length ≠ 2 ∨ n < 1 ∨ 999 < n then (s, .refuse .badArg)
  else
    match s.ticketOf n with
    | none => (s, .refuse .notFound)
    | some t => if isPrinting t then (s, .refuse .wrongState) else (s.abandon t, .ok [])

/-- TKT.RELEASE (R128). -/
def State.tktRelease (s : State) (body : List Byte) : State × Answer :=
  let n := field body 1 2
  if body.length ≠ 2 ∨ n < 1 ∨ 999 < n then (s, .refuse .badArg)
  else
    match s.ticketOf n with
    | none => (s, .refuse .notFound)
    | some t => if t.state = .held then (s.releaseTicket t, .ok []) else (s, .refuse .wrongState)

/-! ## Meanings -/

def execClkEnrol (body : List Byte) (s : State) : Host.Outcome State Fault Refusal :=
  .next (s.transact 48 body (fun t => t.clkEnrol body))

def execClkRemove (body : List Byte) (s : State) : Host.Outcome State Fault Refusal :=
  .next (s.transact 49 body (fun t => t.clkRemove body))

def execClkRead (body : List Byte) (s : State) : Host.Outcome State Fault Refusal :=
  .next (s.transact 50 body (fun t => t.clkRead body))

def execTktRead (body : List Byte) (s : State) : Host.Outcome State Fault Refusal :=
  .next (s.transact 64 body (fun t => t.tktRead body))

/-- The row TICKET_DIRECTORY is TKT.READ with the number 0 (R131). -/
def execTicketDirectory (s : State) : Host.Outcome State Fault Refusal :=
  .next (s.transact 64 (chars 2 0) (fun t => (t, .ok t.directoryChars)))

def execTktCancel (body : List Byte) (s : State) : Host.Outcome State Fault Refusal :=
  .next (s.transact 65 body (fun t => t.tktCancel body))

def execTktRelease (body : List Byte) (s : State) : Host.Outcome State Fault Refusal :=
  .next (s.transact 66 body (fun t => t.tktRelease body))

def execLogin (scale clerk : Nat) (s : State) : Host.Outcome State Fault Refusal :=
  .next (s.deliverAction scale (fun t => t.takeLogin scale clerk))

def execLogout (scale : Nat) (s : State) : Host.Outcome State Fault Refusal :=
  .next (s.deliverAction scale (fun t => t.takeLogout scale))

def execNew (scale : Nat) (s : State) : Host.Outcome State Fault Refusal :=
  .next (s.deliverAction scale (fun t => t.takeNew scale))

def execSwitch (scale ticket : Nat) (s : State) : Host.Outcome State Fault Refusal :=
  .next (s.deliverAction scale (fun t => t.takeSwitch scale ticket))

def execAdd (scale stamp : Nat) (s : State) : Host.Outcome State Fault Refusal :=
  .next (s.deliverAction scale (fun t => t.takeAdd scale stamp))

def execVoidItem (scale position : Nat) (s : State) : Host.Outcome State Fault Refusal :=
  .next (s.deliverAction scale (fun t => t.takeVoidItem scale position))

def execVoidTicket (scale : Nat) (s : State) : Host.Outcome State Fault Refusal :=
  .next (s.deliverAction scale (fun t => t.takeVoidTicket scale))

def execRelease (scale ticket : Nat) (s : State) : Host.Outcome State Fault Refusal :=
  .next (s.deliverAction scale (fun t => t.takeRelease scale ticket))

end Sys2Proof.Machine
end

