-- ==== Sys2Proof/Machine/Printing.lean ====
section
/-! DEFINITION. Print jobs: job tags, CLOSE, LABEL and its proof form, the PRINTED report, and the end of jobs at a
departure (R134 to R147). -/

namespace Sys2Proof.Machine

/-! ## Job tags (R134, R135) -/

/-- The job tag is that of a PRINTING ticket whose print scale is the scale. -/
def holdsTag (a tag : Nat) (t : Ticket) : Bool :=
  match t.state with
  | .printing job => job.scale == a && job.tag == tag
  | .opened _ => false
  | .held => false
  | .parked _ => false
  | .printWait => false

/-- R135: the tag is neither the job tag of a PRINTING ticket of the scale nor the scale's last proof tag. -/
def State.tagFree (s : State) (a tag : Nat) : Bool :=
  !s.sc.tickets.any (holdsTag a tag) && (s.printRecord a).lastProof != some tag

/-- R135: the first free tag, counting up from the next job tag and wrapping from 255 to 0. -/
def State.jobTag (s : State) (a : Nat) : Nat :=
  let start := (s.printRecord a).nextTag
  (((List.range 256).map (fun i => (start + i) % 256)).find? (s.tagFree a)).getD start

/-- R135: the next job tag becomes the value after the one assigned. -/
def State.assignTag (s : State) (a tag : Nat) : State :=
  s.setPrintRecord a { s.printRecord a with nextTag := (tag + 1) % 256 }

/-- The print deadline of a job that starts now (R134). -/
def State.printDeadline (s : State) : Nat := moment s.op.now (1000 * s.op.settings.printTimeout)

/-! ## CLOSE (R136 to R138, R140) -/

/-- The ACTIVE items of a ticket. -/
def activeItems (t : Ticket) : List Item := t.items.filter (fun i => !i.voided)

/-- The TOTAL label of a ticket, built now (R140). -/
def State.totalLabel (s : State) (t : Ticket) (tag : Nat) : Label :=
  .total tag t.number t.queueNumber t.clerk (activeItems t).length t.total s.op.clock s.liveBank.period

/-- The ticket in PRINTING with a job at the scale (R138 step 3). -/
def State.printing (s : State) (t : Ticket) (a tag : Nat) : Ticket :=
  { t with state := .printing { scale := a, tag := tag, deadline := s.printDeadline } }

/-- The empty close (R137). -/
def State.closeEmpty (s : State) (a : Nat) (t : Ticket) : State :=
  (s.removeTicket t).reply a 16 .ok (chars 2 t.number ++ chars 1 2)

/-- The start of a print job at a CLOSE (R138). -/
def State.closePrint (s : State) (a : Nat) (t : Ticket) : State :=
  let tag := s.jobTag a
  let u := ((s.assignTag a tag).offerTail a (.print (s.totalLabel t tag))).putTicket (s.printing t a tag)
  (u.setActive t.clerk none).reply a 16 .ok (chars 2 t.number ++ chars 1 1 ++ chars 4 t.total ++ chars 1 tag)

/-- A CLOSE of a ticket that passes the checks of R136. -/
def State.carryClose (s : State) (a : Nat) (t : Ticket) : State :=
  if activeItems t = [] then s.closeEmpty a t else s.closePrint a t

/-- CLOSE (R136). -/
def State.takeClose (s : State) (a : Nat) : State :=
  match s.clerkAt a with
  | none => s.reply a 16 .noClerk []
  | some c =>
    if (s.station a).state = .proof then s.reply a 16 .proofOnly []
    else
      match s.activeOf c with
      | none => s.reply a 16 .wrongState []
      | some t =>
        match t.state with
        | .opened _ => s.carryClose a t
        | .printWait => s.carryClose a t
        | .held => s.reply a 16 .held []
        | .parked _ => s.reply a 16 .wrongState []
        | .printing _ => s.reply a 16 .wrongState []

/-! ## LABEL (R139, R140, R145, R146) -/

/-- The net, the quantity or 0, by sale mode (R139). -/
def labelAmount (i : Item) : Nat :=
  match i.mode with
  | .byWeight => i.net.getD 0
  | .byCount => i.quantity.getD 0
  | .fixed => 0

/-- The ITEM or PROOF label of an item and its snapshot, built now (R140). -/
def State.itemLabel (s : State) (p : Snapshot) (i : Item) (tag ticket : Nat) (proof : Bool) : Label :=
  .item tag proof ticket i.mode (labelAmount i) i.tare i.unit i.price s.op.clock p.content.name

/-- The DIRECT ticket of a LABEL, with its item and its print job (R145 steps 1, 2 and 4; R168). -/
def State.directTicket (s : State) (a c : Nat) (i : Item) (tag : Nat) (marks : Bool) : Ticket :=
  { number := s.freshTicketNumber, kind := .direct, queueNumber := none, clerk := c,
    state := .printing { scale := a, tag := tag, deadline := s.printDeadline }, items := [i], total := i.price,
    openedAt := s.op.clock, lastActivity := s.op.now, aSeen := marks }

/-- A LABEL that passes every check (R145). -/
def State.carryLabel (s : State) (a c : Nat) (p : Snapshot) (i : Item) (marks : Bool) : State :=
  let tag := s.jobTag a
  let t := s.directTicket a c i tag marks
  let touched := s.unpinTouches a
  let u := ((((s.openTicket t).addRef i.article).assignTag a tag).offerTail a
    (.print (s.itemLabel p i tag t.number false))).releasePin a
  (u.reply a 13 .ok (chars 2 t.number ++ chars 3 i.price ++ chars 1 tag)).finish touched

/-- Check 5 of R145 and what follows from it (R166 to R170). A HOLD acts as a NOTE here (R169), so no outcome is HOLD. -/
def State.watchedLabel (s : State) (a c : Nat) (p : Snapshot) (i : Item) : State :=
  let r := watchResult s.wu .label i.article i.price c false
  let marks := marksA s.wu r
  let u := s.countMatches r
  match r.outcome with
  | some .block => (u.reply a 13 .watched []).noteMatches r .label 1 a c 0 i.article i.price 0
  | some .hold => (u.carryLabel a c p i marks).noteMatches r .label 3 a c s.freshTicketNumber i.article i.price 1
  | some .note => (u.carryLabel a c p i marks).noteMatches r .label 3 a c s.freshTicketNumber i.article i.price 1
  | none => u.carryLabel a c p i marks

/-- A proof LABEL that passes its checks (R146). -/
def State.carryProofLabel (s : State) (a : Nat) (p : Snapshot) (i : Item) : State :=
  let tag := s.jobTag a
  let touched := s.unpinTouches a
  let t := s.assignTag a tag
  let u := ((t.setPrintRecord a { t.printRecord a with lastProof := some tag }).offerTail a
    (.print (s.itemLabel p i tag 0 true))).releasePin a
  (u.reply a 13 .ok (chars 2 0 ++ chars 3 i.price ++ chars 1 tag)).finish touched

/-- LABEL (R145, R146). -/
def State.takeLabel (s : State) (a stamp : Nat) : State :=
  match s.clerkAt a with
  | none => s.reply a 13 .noClerk []
  | some c =>
    match s.itemCheck a stamp with
    | .refused code => s.reply a 13 code []
    | .item p i =>
      if (s.station a).state = .proof then s.carryProofLabel a p i
      else if s.tableFull then s.reply a 13 .tableFull []
      else s.watchedLabel a c p i

/-! ## The end of a job (R141 to R143, R147) -/

/-- The PRINTING ticket of a scale and a job tag (R141). -/
def State.jobOf (s : State) (a tag : Nat) : Option Ticket := s.sc.tickets.find? (holdsTag a tag)

/-- R142: the job fields removed, the ticket in PRINT_WAIT. -/
def waiting (t : Ticket) : Ticket := { t with state := .printWait }

/-- A job ends in PRINT_WAIT with its notice (R142, R143, R147): cause 1 FAILED, 2 TIMEOUT, 3 STATION. -/
def State.failJob (s : State) (t : Ticket) (a tag cause : Nat) : State :=
  (s.putTicket (waiting t)).raise .printFailed [t.number, t.clerk, a, tag, cause]

/-- R142: a PRINTED that matches no PRINTING ticket: the proof outcome, or a stray. -/
def State.unmatchedPrinted (s : State) (a tag : Nat) : State :=
  let r := s.printRecord a
  if r.lastProof = some tag then s.setPrintRecord a { r with lastProof := none }
  else s.setPrintRecord a { r with strays := min 65535 (r.strays + 1) }

/-- A taken PRINTED (R141, R142). -/
def State.takePrinted (s : State) (a tag : Nat) (ok : Bool) : State :=
  match s.jobOf a tag with
  | none => s.unmatchedPrinted a tag
  | some t => if ok then (s.post t a).removeTicket t else s.failJob t a tag 1

/-- R143 step 1: the job's PRINT withdrawn where it is unsent, and the freed entry refilled. -/
def State.withdrawPrint (s : State) (a tag : Nat) : State :=
  let st := s.station a
  if st.queue.any (unsent (isPrintOf tag)) then
    (s.setStation a { st with queue := withdrawUnsent (isPrintOf tag) st.queue }).refill a
  else s

/-- R147: the PRINTING tickets of a scale go to PRINT_WAIT, by rising number. -/
def State.failJobs (s : State) (a : Nat) : List Ticket → State
  | [] => s
  | t :: rest =>
    match t.state with
    | .printing job => if job.scale = a then (s.failJob t a job.tag 3).failJobs a rest else s.failJobs a rest
    | .opened _ => s.failJobs a rest
    | .held => s.failJobs a rest
    | .parked _ => s.failJobs a rest
    | .printWait => s.failJobs a rest

/-- What a scale's departure does to its print jobs (R147). -/
def State.departJobs (s : State) (a : Nat) : State :=
  let t := s.setPrintRecord a { s.printRecord a with lastProof := none }
  t.failJobs a t.sc.tickets

/-! ## Meanings -/

def execClose (scale : Nat) (s : State) : Host.Outcome State Fault Refusal :=
  .next (s.deliverAction scale (fun t => t.takeClose scale))

def execLabel (scale stamp : Nat) (s : State) : Host.Outcome State Fault Refusal :=
  .next (s.deliverAction scale (fun t => t.takeLabel scale stamp))

def execPrinted (scale tag : Nat) (ok : Bool) (s : State) : Host.Outcome State Fault Refusal :=
  .next (if isScale scale then s.deliver scale .scale false (fun t => t.takePrinted scale tag ok) else s)

end Sys2Proof.Machine
end

