-- ==== Sys2Proof/Machine/Queue.lean ====
section
/-! DEFINITION. The customer queue and the rush level: TAKE, NEXT, RECALL, SKIP, examinations and level changes,
QUE.READ and QUE.RESET (R149 to R162). -/

namespace Sys2Proof.Machine

/-! ## Queue numbers and the now-serving list (R150, R152) -/

/-- A queue number in use (R150). -/
def State.queueInUse (s : State) (q : Nat) : Bool :=
  s.qc.waiting.contains q || s.sc.tickets.any (fun t => t.queueNumber == some q)

/-- R150: the first free number, counting up from the next number and wrapping from 99 to 0. -/
def State.freeQueueNumber (s : State) : Option Nat :=
  ((List.range 100).map (fun i => (s.qc.nextNumber + i) % 100)).find? (fun q => !s.queueInUse q)

/-- R152: placement of a number from a scale at the front. -/
def placeServing (q a : Nat) (l : List (Nat × Nat)) : List (Nat × Nat) :=
  ((q, a) :: l.filter (fun e => e.1 != q)).take 4

/-- R152: removal of a number. -/
def dropServing (q : Nat) (l : List (Nat × Nat)) : List (Nat × Nat) := l.filter (fun e => e.1 != q)

def State.setServing (s : State) (l : List (Nat × Nat)) : State := { s with qc := { s.qc with serving := l } }

/-! ## The rush level (R157, R158) -/

/-- The residency minimum of a level, in milliseconds (R157). -/
def State.residencyMinimum (s : State) (level : RushLevel) : Nat :=
  match level with
  | .normal => 1000 * s.op.settings.residencyNormal
  | .rush => 1000 * s.op.settings.residencyRush

/-- A level entered now (R157); the expiry of its residency deadline is still to come. -/
def State.enterLevel (s : State) (level : RushLevel) : State :=
  { s with qc := { s.qc with level := level, entered := s.op.now
                             residency := moment s.op.now (s.residencyMinimum level), residencyPending := true } }

/-- R158 step 2, for the OPEN tickets of a list, by rising number. -/
def State.recompute (s : State) : List Ticket → State
  | [] => s
  | t :: rest =>
    match t.state with
    | .opened _ =>
        let m := moment t.lastActivity s.idleTimeout
        if m ≤ s.op.now then (s.park t).recompute rest
        else (s.putTicket { t with state := .opened m }).recompute rest
    | .held => s.recompute rest
    | .parked _ => s.recompute rest
    | .printing _ => s.recompute rest
    | .printWait => s.recompute rest

/-- R158 step 3. -/
def levelNotice : RushLevel → NoticeKind
  | .rush => .rushOn
  | .normal => .rushOff

/-- A change of the rush level (R158), but for its CALLOUT, which the event offers once (R153). -/
def State.changeLevel (s : State) (level : RushLevel) : State :=
  let t := s.enterLevel level
  (t.recompute t.sc.tickets).raise (levelNotice level) [levelCode level, s.qc.waiting.length]

/-- The condition of R157 holds for a change of the level in force. -/
def State.rushCondition (s : State) : Bool :=
  decide (s.qc.residency ≤ s.op.now)
    && (match s.qc.level with
        | .normal => decide (s.op.settings.rushThreshold ≤ s.qc.waiting.length)
        | .rush => decide (s.qc.waiting.length ≤ s.op.settings.calmThreshold))

def otherLevel : RushLevel → RushLevel
  | .normal => .rush
  | .rush => .normal

/-- The examination of the rush condition (R157). -/
def State.examine (s : State) : State := if s.rushCondition then s.changeLevel (otherLevel s.qc.level) else s

/-! ## TAKE (R151) -/

/-- A TAKE refused (R151): cause 1 QUEUE, 2 NUMBERS. -/
def State.refuseTake (s : State) (cause : Nat) : State :=
  (s.raise .queueFull [s.qc.waiting.length, cause]).reply 17 21 .full []

/-- A number issued (R151). -/
def State.issue (s : State) (q : Nat) : State :=
  let t := { s with qc := { s.qc with waiting := s.qc.waiting ++ [q], nextNumber := (q + 1) % 100 } }
  (t.examine.offerCallout).reply 17 21 .ok (chars 1 q)

/-- A taken TAKE (R151). -/
def State.takeTake (s : State) : State :=
  if 64 ≤ s.qc.waiting.length then s.refuseTake 1
  else
    match s.freeQueueNumber with
    | none => s.refuseTake 2
    | some q => s.issue q

/-! ## NEXT, RECALL and SKIP (R154 to R156) -/

/-- A NEXT that passes the checks (R154), for clerk c and the oldest number q. -/
def State.carryNext (s : State) (a c q : Nat) (rest : List Nat) : State :=
  let t1 := { s with qc := { s.qc with waiting := rest } }
  let ticket := t1.counterTicket c (some q)
  let t2 := (t1.openTicket ticket).setActive c (some ticket.number)
  let t3 := t2.setServing (placeServing q a t2.qc.serving)
  (t3.examine.offerCallout).reply a 18 .ok (chars 2 ticket.number ++ chars 1 q)

/-- NEXT (R154). -/
def State.takeNext (s : State) (a : Nat) : State :=
  match s.openingRefused a, s.clerkAt a, s.qc.waiting with
  | some code, _, _ => s.reply a 18 code []
  | none, none, _ => s.reply a 18 .noClerk []
  | none, some _, [] => s.reply a 18 .emptyQueue []
  | none, some c, q :: rest => s.carryNext a c q rest

/-- The queue number of the clerk's active ticket (R155 check 3). -/
def State.activeNumber (s : State) (c : Nat) : Option Nat := (s.activeOf c).bind (·.queueNumber)

/-- RECALL (R155). -/
def State.takeRecall (s : State) (a : Nat) : State :=
  match s.clerkAt a with
  | none => s.reply a 19 .noClerk []
  | some c =>
    if (s.station a).state = .proof then s.reply a 19 .proofOnly []
    else
      match s.activeNumber c with
      | none => s.reply a 19 .wrongState []
      | some q => ((s.setServing (placeServing q a s.qc.serving)).offerCallout).reply a 19 .ok (chars 1 q)

/-- R156 check 3: an OPEN ticket with a queue number and no item. -/
def skippable (t : Ticket) : Option Nat :=
  match t.state, t.items with
  | .opened _, [] => t.queueNumber
  | _, _ => none

/-- A SKIP that passes the checks (R156). -/
def State.carrySkip (s : State) (a : Nat) (t : Ticket) (q : Nat) : State :=
  let u := s.removeTicket t
  let l := dropServing q u.qc.serving
  let v := if l = u.qc.serving then u else (u.setServing l).offerCallout
  v.reply a 20 .ok (chars 2 t.number ++ chars 1 q)

/-- SKIP (R156). -/
def State.takeSkip (s : State) (a : Nat) : State :=
  match s.clerkAt a with
  | none => s.reply a 20 .noClerk []
  | some c =>
    if (s.station a).state = .proof then s.reply a 20 .proofOnly []
    else
      match s.activeOf c with
      | none => s.reply a 20 .wrongState []
      | some t =>
        match skippable t with
        | none => s.reply a 20 .wrongState []
        | some q => s.carrySkip a t q

/-! ## Host commands (R160, R161) -/

/-- The response body of QUE.READ (R160). -/
def State.queueChars (s : State) : List Byte :=
  chars 1 (levelCode s.qc.level) ++ secondsChars ((s.op.now - s.qc.entered) / 1000)
    ++ secondsChars (secondsLeft s.op.now s.qc.residency) ++ chars 1 s.qc.nextNumber
    ++ chars 1 s.qc.waiting.length ++ s.qc.waiting.flatMap (chars 1)
    ++ chars 1 (s.sc.tickets.filter (fun t => t.queueNumber.isSome)).length
    ++ chars 1 s.qc.serving.length ++ s.qc.serving.flatMap (fun e => chars 1 e.1 ++ chars 1 e.2)
    ++ chars 1 (stationStateCode (s.station 17).state) ++ chars 1 (stationStateCode (s.station 18).state)

/-- QUE.READ (R160). -/
def State.queRead (s : State) (body : List Byte) : State × Answer :=
  if body.length ≠ 0 then (s, .refuse .badArg) else (s, .ok s.queueChars)

/-- QUE.RESET (R161). -/
def State.queReset (s : State) (body : List Byte) : State × Answer :=
  let n := field body 1 1
  if body.length ≠ 1 ∨ 99 < n then (s, .refuse .badArg)
  else
    let t := { s with qc := { s.qc with waiting := [], nextNumber := n } }
    if s.qc.waiting = [] then (t, .ok []) else (t.examine.offerCallout, .ok [])

/-! ## Meanings -/

def execTake (s : State) : Host.Outcome State Fault Refusal :=
  .next (s.deliver 17 .dispenser true State.takeTake)

def execNext (scale : Nat) (s : State) : Host.Outcome State Fault Refusal :=
  .next (s.deliverAction scale (fun t => t.takeNext scale))

def execRecall (scale : Nat) (s : State) : Host.Outcome State Fault Refusal :=
  .next (s.deliverAction scale (fun t => t.takeRecall scale))

def execSkip (scale : Nat) (s : State) : Host.Outcome State Fault Refusal :=
  .next (s.deliverAction scale (fun t => t.takeSkip scale))

def execQueRead (body : List Byte) (s : State) : Host.Outcome State Fault Refusal :=
  .next (s.transact 80 body (fun t => t.queRead body))

def execQueReset (body : List Byte) (s : State) : Host.Outcome State Fault Refusal :=
  .next (s.transact 81 body (fun t => t.queReset body))

end Sys2Proof.Machine
end

