-- ==== Sys2Proof/Machine/Line.lean ====
section
/-! DEFINITION. The counter line: visit slots and visits, good replies, misses, joins, departures, detachment by the
error score, and STN.MODE and STN.READ (R1 to R24, R92, R104, R105). -/

namespace Sys2Proof.Machine

/-! ## Visit slots (R3, R4) -/

def isAbsent : StationState → Bool
  | .absent => true
  | .off => false
  | .joining => false
  | .normal => false
  | .detached => false
  | .proof => false

/-- The first station of a kind of state after a pointer, in increasing address order, wrapping from 18 to 1 (R3). -/
def State.firstAfter (s : State) (p : StationState → Bool) (pointer : Nat) : Option Nat :=
  ((List.range 18).map (fun i => (pointer + i) % 18 + 1)).find? (fun a => p (s.station a).state)

def State.openVisit (s : State) (v : Visit) : State := { s with lc := { s.lc with visit := some v } }

/-- A probe (R4): ASK with D-seq 0 and U-ack 0. -/
def State.beginProbe (s : State) (a : Nat) : State :=
  ({ s with lc := { s.lc with probePtr := a } }).openVisit
    { station := a, probe := true, frame := frame a 1 (flagsChar false false false) [], window := none }

/-- The head of a queue that carries the sent mark (R4). -/
def markHead : List Entry → List Entry
  | [] => []
  | e :: rest => { e with sent := true } :: rest

/-- An ordinary visit (the table of R4). -/
def State.beginVisit (s : State) (a : Nat) : State :=
  let st := s.station a
  let t := { s with lc := { s.lc with visitPtr := a } }
  let ask := frame a 1 (flagsChar st.dSeq st.lastU false) []
  match st.queue with
  | [] => t.openVisit { station := a, probe := false, frame := ask, window := none }
  | e :: _ =>
    if st.holdOff = true ∧ st.state ≠ .joining then
      t.openVisit { station := a, probe := false, frame := ask, window := none }
    else
      (t.setStation a { st with queue := markHead st.queue }).openVisit
        { station := a, probe := false, frame := frame a (downKind e.msg) (flagsChar st.dSeq st.lastU false) (payload e.msg),
          window := none }

/-- A slot (R3). -/
def State.beginSlot (s : State) : State :=
  match s.firstAfter polled s.lc.visitPtr, s.firstAfter isAbsent s.lc.probePtr with
  | none, none => s
  | none, some p => s.beginProbe p
  | some a, none => s.beginVisit a
  | some a, some p => if 8 ≤ s.lc.slotCount then s.beginProbe p else s.beginVisit a

/-- The next slot begins, where no visit is open and RESET is high (R4, R191). -/
def State.nextSlot (s : State) : State :=
  if s.lc.visit.isNone ∧ s.op.resetLow = false then s.beginSlot else s

/-- A visit ends and its slot is counted (R3). -/
def State.endVisit (s : State) : State :=
  { s with lc := { s.lc with visit := none, slotCount := if 8 ≤ s.lc.slotCount then 1 else s.lc.slotCount + 1 } }

/-! ## Leaving service (R10, R47, R105, R133, R147) -/

/-- What the blocks do when a scale leaves service (R10): the clerk is logged out, the map emptied, the pin dropped, the
channel emptied, and the print jobs end. -/
def State.departScale (s : State) (a : Nat) : State :=
  let touched := s.mapTouches a ++ s.unpinTouches a
  let t := ((s.logoutScale a).emptyMap a).unpin a
  ((t.setChannel a (emptied (t.channel a))).finish touched).departJobs a

/-- The station record after leaving service (R10). -/
def departed (st : Station) (state : StationState) : Station :=
  { st with state := state, queue := [], backlog := .articles [], holdOff := false, showOwed := false, miss := 0 }

/-- A station leaves service for ABSENT or OFF (R10). -/
def State.leaveService (s : State) (a : Nat) (state : StationState) : State :=
  let t := s.setStation a (departed (s.station a) state)
  match kindOf a with
  | .scale => t.departScale a
  | .dispenser => t
  | .display => t

/-! ## Moves between in-service states (R7, R11, R17, R92, R104) -/

/-- A scale's move from one in-service state to another: the state, the SETMODE, the map emptied with its PURGE "all"
where the scale leaves NORMAL, and the pin released without its evaluation. -/
def State.shiftService (s : State) (a : Nat) (state : StationState) : State :=
  let fromNormal := decide ((s.station a).state = .normal)
  let t := (s.setStation a { s.station a with state := state }).offerSetmode a
  (if fromNormal then (t.emptyMap a).offerPurgeAll a else t).unpin a

/-- The articles that a move between in-service states touches. -/
def State.shiftTouches (s : State) (a : Nat) : List Nat := s.mapTouches a ++ s.unpinTouches a

/-- The whole move, with its one evaluation (R51) and its settle checks (R104). -/
def State.moveInService (s : State) (a : Nat) (state : StationState) : State :=
  ((s.shiftService a state).evaluate a).finish (s.shiftTouches a)

/-! ## Misses and the error score (R6, R7) -/

/-- The error score reaches 32 with the detached flag clear (R7). -/
def State.scoreDetach (s : State) (a : Nat) : State :=
  let t := (s.setStation a { s.station a with detachedFlag := true }).raise .stationDetached [a, 1]
  match (s.station a).state with
  | .normal => t.moveInService a .detached
  | .joining => t.recomputeJoin a
  | .absent => t
  | .detached => t
  | .proof => t
  | .off => t

/-- A failed check raises a scale's error score by 4 (R6), and R7 acts where the score reaches 32. -/
def State.raiseScore (s : State) (a : Nat) : State :=
  match kindOf a with
  | .scale =>
      let st := s.station a
      let score := min 255 (st.score + 4)
      let t := s.setStation a { st with score := score }
      if st.score < 32 ∧ 32 ≤ score ∧ st.detachedFlag = false then t.scoreDetach a else t
  | .dispenser => s
  | .display => s

/-- A good reply lowers a scale's error score by 1 (R6). -/
def State.lowerScore (s : State) (a : Nat) : State :=
  let st := s.station a
  match kindOf a with
  | .scale => s.setStation a { st with score := st.score - 1 }
  | .dispenser => s
  | .display => s

/-- A third miss (R6): the station goes ABSENT, with a STATION_DOWN where it was in service. -/
def State.goAbsent (s : State) (a : Nat) : State :=
  (if s.inService a then s.raise .stationDown [a] else s).leaveService a .absent

/-- A miss (R6). -/
def State.miss (s : State) (a : Nat) : State :=
  let st := s.station a
  if 3 ≤ st.miss + 1 then s.goAbsent a else s.setStation a { st with miss := st.miss + 1 }

/-- A visit that ends with a reply that failed its check (R6); a probe moves no miss count. -/
def State.failedCheck (s : State) (v : Visit) : State :=
  let t := s.raiseScore v.station
  if v.probe then t else t.miss v.station

/-! ## Messages (R14, R22) -/

/-- An ACTION whose code is not in the table (R22). A code of the table is no such action (log entry 6). -/
def State.takeUnknown (s : State) (a code : Nat) : State :=
  if 1 ≤ code ∧ code ≤ 21 then s else s.reply a code .unknown []

/-- A taken ACTION goes to its owner (R22). -/
def State.takeAction (s : State) (a : Nat) : Action → State
  | .select n => s.takeSelect a n
  | .clear => s.takeClear a
  | .tare => s.takeTare a
  | .ptare g => s.takePtare a g
  | .clrtare => s.takeClrtare a
  | .zero => s.takeZero a
  | .qty n => s.takeQty a n
  | .login c => s.takeLogin a c
  | .logout => s.takeLogout a
  | .newTicket => s.takeNew a
  | .switch n => s.takeSwitch a n
  | .add st => s.takeAdd a st
  | .label st => s.takeLabel a st
  | .voidItem p => s.takeVoidItem a p
  | .voidTicket => s.takeVoidTicket a
  | .close => s.takeClose a
  | .release n => s.takeRelease a n
  | .next => s.takeNext a
  | .recall => s.takeRecall a
  | .skip => s.takeSkip a
  | .override n p => s.takeOverride a n p
  | .unknown c => s.takeUnknown a c

/-- The message of a good reply, new by its U-seq (R14, R15, R22). -/
def State.takeMessage (s : State) (a : Nat) (m : UpMsg) : State :=
  match m with
  | .nil => s
  | .samples rs => s.deliver a .scale false (fun t => t.takeSamples a rs)
  | .action act => s.deliver a .scale true (fun t => t.takeAction a act)
  | .purged n => s.deliver a .scale false (fun t => t.takePurged a n)
  | .printed tag ok => s.deliver a .scale false (fun t => t.takePrinted a tag ok)
  | .take => s.deliver a .dispenser true State.takeTake

/-! ## Good replies (R6, R8, R9, R13, R16) -/

/-- The end of a join (R9). -/
def State.completeJoin (s : State) (a : Nat) (target : StationState) : State :=
  let t := (s.setStation a { s.station a with state := target }).raise .stationUp [a, targetCode target]
  match kindOf a with
  | .scale => t.offerVerdict a
  | .dispenser => t
  | .display => t.offerCallout

/-- The sent head acknowledged (R13): it is removed and D-seq takes its other value; then the join completes, or the
freed ordinary entry is refilled. -/
def State.removeHead (s : State) (a : Nat) (e : Entry) (rest : List Entry) : State :=
  let st := s.station a
  let t := s.setStation a { st with queue := rest, dSeq := !st.dSeq }
  match e.msg with
  | .setmode target true _ => t.completeJoin a target
  | .setmode _ false _ => t
  | _ => t.refill a

/-- The D-ack of a good reply (R13). -/
def State.acknowledge (s : State) (a : Nat) (dAck : Bool) : State :=
  let st := s.station a
  match st.queue with
  | [] => s
  | e :: rest => if e.sent = true ∧ dAck = st.dSeq then s.removeHead a e rest else s

/-- The hold-off bit of a good reply (R16). -/
def State.applyHold (s : State) (a : Nat) (hold : Bool) : State :=
  if s.inService a then s.setStation a { s.station a with holdOff := hold } else s

/-- A good reply to a visit that is not a probe (R6). -/
def State.goodReply (s : State) (a : Nat) (r : Reply) : State :=
  let t1 := (s.setStation a { s.station a with miss := 0 }).lowerScore a
  let t2 := (t1.acknowledge a r.dAck).applyHold a r.hold
  if r.uSeq ≠ (t2.station a).lastU then t2.takeMessage a r.msg else t2

/-- A good reply to a probe (R6, R8): the station goes from ABSENT to JOINING and its channel is emptied (R47). -/
def State.startJoin (s : State) (a : Nat) : State :=
  let t := s.lowerScore a
  let st := t.station a
  let u := t.setStation a
    { st with
      state := .joining, dSeq := true, lastU := false, miss := 0, holdOff := false, showOwed := false
      queue := [{ msg := .setmode (joinTarget a st) true (t.layoutOf a), sent := false }] }
  match kindOf a with
  | .scale => u.setChannel a (emptied (u.channel a))
  | .dispenser => u
  | .display => u

/-- What the reply of a visit does before the visit ends (R6). -/
def State.useReply (s : State) (v : Visit) (l : List Byte) : State :=
  match parseReply v.station l with
  | none => s.failedCheck v
  | some r => if v.probe then s.startJoin v.station else s.goodReply v.station r

/-- A complete reply frame ends the open visit; without one its characters are discarded (R4). -/
def State.takeReply (s : State) (l : List Byte) : State :=
  match s.lc.visit with
  | none => s
  | some v => ((s.useReply v l).endVisit).nextSlot

/-- The reply window expires (R4): a miss, unless the visit is a probe (R6). -/
def State.windowExpiry (s : State) : State :=
  match s.lc.visit with
  | none => s
  | some v =>
    match v.window with
    | none => s
    | some m =>
        let t := s.reach m
        ((if v.probe then t else t.miss v.station).endVisit).nextSlot

/-- A reply that began in time fails to complete (R4, R5). -/
def State.incompleteReply (s : State) : State :=
  match s.lc.visit with
  | none => s
  | some v => ((s.failedCheck v).endVisit).nextSlot

/-- The last character of the downstream frame has been sent: the reply window opens (R4). -/
def State.openWindow (s : State) : State :=
  match s.lc.visit with
  | none => s
  | some v =>
    match v.window with
    | none => s.openVisit { v with window := some (moment s.op.now s.op.settings.replyWindow) }
    | some _ => s

/-! ## STN.MODE (R4, R11) -/

/-- A mode that the station's kind may have (R1, R11). -/
def modeAllowed (a : Nat) : Mode → Bool
  | .off => true
  | .normal => true
  | .detached => a ≤ 16
  | .proof => a ≤ 16

/-- The side effect of a mode and the configured mode (R11). -/
def configured (st : Station) (m : Mode) : Station :=
  match m with
  | .off => { st with mode := .off }
  | .normal => { st with mode := .normal, detachedFlag := false, score := 0 }
  | .detached => { st with mode := .detached, detachedFlag := true }
  | .proof => { st with mode := .proof }

/-- The in-service state a mode moves a station to (R11). -/
def modeState : Mode → StationState
  | .off => .off
  | .normal => .normal
  | .detached => .detached
  | .proof => .proof

/-- STN.MODE OFF (the table of R11). -/
def State.turnOff (s : State) (a : Nat) : State :=
  if polled (s.station a).state then s.leaveService a .off
  else s.setStation a { s.station a with state := .off }

/-- The move that a mode other than OFF makes (the table of R11). -/
def State.applyMode (s : State) (a : Nat) (m : Mode) : State :=
  match (s.station a).state with
  | .off => s.setStation a { s.station a with state := .absent }
  | .absent => s
  | .joining => s.recomputeJoin a
  | .normal => if modeState m = .normal then s else s.moveInService a (modeState m)
  | .detached => if modeState m = .detached then s else s.moveInService a (modeState m)
  | .proof => if modeState m = .proof then s else s.moveInService a (modeState m)

/-- R4: a visit whose station left the polled states, or a probe of a station that is now OFF, ends at once. -/
def State.dropVisit (s : State) : State :=
  match s.lc.visit with
  | none => s
  | some v =>
    if v.probe then (if isAbsent (s.station v.station).state then s else s.endVisit)
    else if polled (s.station v.station).state then s
    else s.endVisit

/-- An accepted STN.MODE (R11). -/
def State.setMode (s : State) (a : Nat) (m : Mode) : State :=
  let t := s.setStation a (configured (s.station a) m)
  ((if m = .off then t.turnOff a else t.applyMode a m).dropVisit).nextSlot

/-- STN.MODE (R11). -/
def State.stnMode (s : State) (body : List Byte) : State × Answer :=
  let a := field body 1 1
  if body.length ≠ 2 ∨ a < 1 ∨ 18 < a then (s, .refuse .badArg)
  else
    match modeOf (field body 2 1) with
    | none => (s, .refuse .badArg)
    | some m => if modeAllowed a m then (s.setMode a m, .ok []) else (s, .refuse .badArg)

/-! ## STN.READ (R24, R48, R107) -/

/-- R24: the length of the purge backlog, 33 standing for "all". -/
def backlogLength : Backlog → Nat
  | .articles l => l.length
  | .all => 33

/-- The Line Controller's part of STN.READ (R24). -/
def stationChars (a : Nat) (st : Station) : List Byte :=
  chars 1 (kindCode (kindOf a)) ++ chars 1 (modeCode st.mode) ++ chars 1 (stationStateCode st.state) ++ chars 1 st.miss
    ++ chars 1 st.score ++ markChar st.detachedFlag ++ markChar st.holdOff ++ chars 1 (ordinary st.queue)
    ++ markChar (st.queue.any (fun e => isSetmode e.msg)) ++ chars 1 (backlogLength st.backlog) ++ markChar st.showOwed

/-- A copy map in STN.READ (R107). -/
def mapChars (m : List CopyEntry) : List Byte :=
  chars 1 m.length
    ++ m.flatMap (fun e => chars 2 e.article ++ chars 1 e.revision ++ chars 1 (if e.purging then 2 else 1))

/-- The fields of R26 in the order of its table. -/
def configChars (c : MetroConfig) : List Byte :=
  chars 2 c.max ++ chars 2 c.split ++ chars 1 c.e1 ++ chars 1 c.e2 ++ chars 1 c.k ++ chars 1 c.band ++ chars 1 c.count
    ++ chars 2 c.spike ++ chars 2 c.tareLimit ++ markChar c.tracking

/-- The channel summary (R48). -/
def summaryChars (ch : Channel) : List Byte :=
  configChars ch.config ++ chars 1 (motionCode ch.motion) ++ chars 1 (weightCode (weightState ch))
    ++ chars 1 ch.window.length ++ chars 1 ch.pass ++ signedChars 4 ch.zero ++ chars 1 (rangeCode ch.range)
    ++ optionSigned 4 (ch.result.map (·.f)) ++ optionSigned 4 (ch.result.map (·.gross))
    ++ chars 1 (tareCode ch.tare) ++ chars 2 (tareValue ch.tare) ++ optionChars 1 ch.ctx.clerk
    ++ optionChars 2 ch.ctx.activeTicket ++ optionChars 2 (ch.ctx.pin.map (·.number))
    ++ optionChars 1 (ch.ctx.pin.map (·.revision)) ++ optionChars 1 ch.ctx.quantity ++ markChar ch.ctx.cancelled
    ++ chars 2 ch.stamp

/-- The response body of STN.READ (R24). -/
def State.stationReadChars (s : State) (a : Nat) : List Byte :=
  stationChars a (s.station a)
    ++ (match kindOf a with
        | .scale =>
            chars 2 (s.printRecord a).strays ++ mapChars (s.copyMap a) ++ summaryChars (s.channel a)
              ++ chars 2 (s.channel a).noise
        | .dispenser => []
        | .display => [])

/-- STN.READ (R24). -/
def State.stnRead (s : State) (body : List Byte) : State × Answer :=
  let a := field body 1 1
  if body.length ≠ 1 ∨ a < 1 ∨ 18 < a then (s, .refuse .badArg) else (s, .ok (s.stationReadChars a))

/-! ## Meanings -/

def execStnMode (body : List Byte) (s : State) : Host.Outcome State Fault Refusal :=
  .next (s.transact 33 body (fun t => t.stnMode body))

def execStnRead (body : List Byte) (s : State) : Host.Outcome State Fault Refusal :=
  .next (s.transact 34 body (fun t => t.stnRead body))

def execDownstreamSent (s : State) : Host.Outcome State Fault Refusal := .next s.openWindow

def execReplyFrame (chars : List Byte) (s : State) : Host.Outcome State Fault Refusal := .next (s.takeReply chars)

def execReplyWindowExpiry (s : State) : Host.Outcome State Fault Refusal := .next s.windowExpiry

def execReplyIncomplete (s : State) : Host.Outcome State Fault Refusal := .next s.incompleteReply

/-- R4: characters outside a visit are discarded. -/
def execLineCharactersOutsideVisit (_chars : List Byte) (s : State) : Host.Outcome State Fault Refusal := .next s

/-- R22: an ACTION with a code of the table is no such action, and changes nothing (log entry 6). -/
def execUnknownAction (scale code : Nat) (s : State) : Host.Outcome State Fault Refusal :=
  .next (if 1 ≤ code ∧ code ≤ 21 then s else s.deliverAction scale (fun t => t.takeUnknown scale code))

end Sys2Proof.Machine
end

