-- ==== Sys2Proof/Machine/Deadlines.lean ====
section
/-! DEFINITION. The part's own deadlines and its clock: settle timeout, idle, expiry, print and residency deadlines, and
the clock tick (R102, R126, R143, R157, R186). A row of an expiry comes with the time base at its deadline (log
entry 1); while RESET is held low no deadline is taken (R191). -/

namespace Sys2Proof.Machine

/-! ## Settle timeout (R102) -/

/-- R102 step 2, for one scale, without its evaluation. -/
def State.forceDetach (s : State) (a : Nat) : State :=
  (s.setStation a { s.station a with detachedFlag := true }).shiftService a .detached

/-- R102 step 4: one STATION_DETACHED for each detached scale, with the cause settle and the article. -/
def State.noteDetached (s : State) (n : Nat) (holders : List Nat) : State :=
  holders.foldl (fun t a => t.raise .stationDetached [a, 2, n]) s

/-- The articles that the detachments touch (R102 step 7). -/
def State.detachTouches (s : State) (holders : List Nat) : List Nat := holders.flatMap (fun a => s.shiftTouches a)

/-- A change completed by force (R102). -/
def State.forceSettle (s : State) (c : Change) : State :=
  let cancelled := s.oldPins c
  let t1 := cancelled.foldl State.cancelPin s
  let holders := (t1.article c.article).holders
  let touched := t1.detachTouches holders
  let t2 := holders.foldl State.forceDetach t1
  let t3 := (rising (cancelled ++ holders)).foldl State.evaluate t2
  let t4 := (t3.noteDetached c.article holders).noteSettled c holders.length cancelled.length 2
  let t5 := t4.closeChange c.article
  let t6 := (t5.cd.changes.map (·.article)).foldl State.settleCheck t5
  (rising (c.article :: touched)).foldl State.emptyCheck t6

/-! ## The expiries -/

/-- The idle deadline of an OPEN ticket expires (R126). -/
def State.idleExpired (s : State) (t : Ticket) : State := s.park t

/-- The expiry deadline of a PARKED ticket expires (R126). -/
def State.expiryExpired (s : State) (t : Ticket) : State :=
  (s.abandon t).raise .ticketExpired [t.number, t.clerk, optionSubject t.queueNumber, t.total]

/-- The print deadline of a PRINTING ticket expires (R143). -/
def State.printExpired (s : State) (t : Ticket) (job : PrintJob) : State :=
  (s.withdrawPrint job.scale job.tag).failJob t job.scale job.tag 2

/-- The residency deadline expires (R157): it expires once per entry; a change of level offers its CALLOUT (R153). -/
def State.residencyExpired (s : State) : State :=
  let t := { s with qc := { s.qc with residencyPending := false } }
  if t.rushCondition then (t.changeLevel (otherLevel t.qc.level)).offerCallout else t

/-- An expiry taken at its deadline m: the time base stands at m at least; while RESET is held low the deadline waits
(R191). -/
def State.expire (s : State) (m : Nat) (taken : State → State) : State :=
  if s.op.resetLow then s.reach m else taken (s.reach m)

/-- The idle deadline of an OPEN ticket (R114). -/
def idleMoment (t : Ticket) : Option Nat :=
  match t.state with
  | .opened m => some m
  | .held => none
  | .parked _ => none
  | .printing _ => none
  | .printWait => none

/-- The expiry deadline of a PARKED ticket (R114). -/
def expiryMoment (t : Ticket) : Option Nat :=
  match t.state with
  | .parked m => some m
  | .opened _ => none
  | .held => none
  | .printing _ => none
  | .printWait => none

/-- The print job of a PRINTING ticket (R134). -/
def printJob (t : Ticket) : Option PrintJob :=
  match t.state with
  | .printing job => some job
  | .opened _ => none
  | .held => none
  | .parked _ => none
  | .printWait => none

/-- The moment of a deadline, where it stands. -/
def State.deadlineOf (s : State) : Deadline → Option Nat
  | .settle n => (s.changeOf n).map (·.deadline)
  | .idle n => (s.ticketOf n).bind idleMoment
  | .expiry n => (s.ticketOf n).bind expiryMoment
  | .print n => ((s.ticketOf n).bind printJob).map (·.deadline)
  | .residency => if s.qc.residencyPending then some s.qc.residency else none

/-- What the expiry of a deadline does. -/
def State.takeDeadline (s : State) : Deadline → State
  | .settle n =>
      match s.changeOf n with
      | some c => s.forceSettle c
      | none => s
  | .idle n =>
      match s.ticketOf n with
      | some t => s.idleExpired t
      | none => s
  | .expiry n =>
      match s.ticketOf n with
      | some t => s.expiryExpired t
      | none => s
  | .print n =>
      match s.ticketOf n with
      | some t =>
        match printJob t with
        | some job => s.printExpired t job
        | none => s
      | none => s
  | .residency => s.residencyExpired

/-- The row of a deadline: where it stands, it expires. -/
def State.deadlineRow (s : State) (d : Deadline) : State :=
  match s.deadlineOf d with
  | some m => s.expire m (fun t => t.takeDeadline d)
  | none => s

/-! ## Deadlines that fell while RESET was low (R191) -/

/-- Every deadline of the part, in a fixed order. -/
def State.deadlines (s : State) : List Deadline :=
  s.cd.changes.map (fun c => .settle c.article) ++ s.sc.tickets.map (fun t => .idle t.number)
    ++ s.sc.tickets.map (fun t => .expiry t.number) ++ s.sc.tickets.map (fun t => .print t.number) ++ [.residency]

/-- The deadline has been reached. -/
def State.due (s : State) (d : Deadline) : Bool :=
  match s.deadlineOf d with
  | some m => decide (m ≤ s.op.now)
  | none => false

/-- A deadline before another: by moment; of one moment, by the free value of Config (log entry 10). -/
def earlier (count : Nat) (x y : Nat × Deadline) : Bool :=
  if x.1 = y.1 then decide (Config.tieRank count x.2 < Config.tieRank count y.2) else decide (x.1 < y.1)

def insertDeadline (count : Nat) (x : Nat × Deadline) : List (Nat × Deadline) → List (Nat × Deadline)
  | [] => [x]
  | y :: rest => if earlier count x y then x :: y :: rest else y :: insertDeadline count x rest

/-- The deadlines that have been reached, in the order they are taken in. -/
def State.dueOrder (s : State) : List Deadline :=
  ((s.deadlines.filter s.due).foldl
    (fun acc d => insertDeadline s.freeCount ((s.deadlineOf d).getD 0, d) acc) []).map (·.2)

/-- One of them taken, where an earlier one has not removed or moved it. -/
def State.takeIfDue (s : State) (d : Deadline) : State := if s.due d then s.takeDeadline d else s

/-- R191: the deadlines that fell while RESET was low are taken when it rises. -/
def State.takeDue (s : State) : State :=
  let order := s.dueOrder
  order.foldl State.takeIfDue { s with freeCount := s.freeCount + 1 }

/-! ## The clock (R186) -/

/-- One second of the clock. -/
def State.clockTick (s : State) : State :=
  let m := moment s.op.clockBase 1000
  let t := s.reach m
  { t with op := { t.op with clockBase := m, clock := (t.op.clock + 1) % 4294967296 } }

/-! ## Meanings -/

def execSettleTimeout (article : Nat) (s : State) : Host.Outcome State Fault Refusal :=
  .next (s.deadlineRow (.settle article))

def execIdleDeadlineExpiry (ticket : Nat) (s : State) : Host.Outcome State Fault Refusal :=
  .next (s.deadlineRow (.idle ticket))

def execExpiryDeadlineExpiry (ticket : Nat) (s : State) : Host.Outcome State Fault Refusal :=
  .next (s.deadlineRow (.expiry ticket))

def execPrintDeadlineExpiry (ticket : Nat) (s : State) : Host.Outcome State Fault Refusal :=
  .next (s.deadlineRow (.print ticket))

def execResidencyExpiry (s : State) : Host.Outcome State Fault Refusal := .next (s.deadlineRow .residency)

def execClockTick (s : State) : Host.Outcome State Fault Refusal := .next s.clockTick

end Sys2Proof.Machine
end

