-- ==== Sys2Proof/Machine/Port.lean ====
section
/-! DEFINITION. The Office Port: transactions, the command table, counter settings, clock, notices, status, and the
starts of the part (R183 to R191; the warm restart of every block: R23, R47, R85, R106, R133, R147, R162, R172,
R181). -/

namespace Sys2Proof.Machine

/-! ## Warm restart -/

/-- R23, for one station. -/
def restartedStation (st : Station) : Station :=
  departed st (if st.state = .off then .off else .absent)

/-- R23: the Line Controller. -/
def State.restartLine (s : State) : State :=
  let t := stationAddresses.foldl (fun u a => u.setStation a (restartedStation (u.station a))) s
  { t with lc := { t.lc with visit := none, visitPtr := 1, probePtr := 1, slotCount := 1 } }

/-- R47: the Weighing Engine. -/
def State.restartChannels (s : State) : State := scales.foldl (fun t a => t.setChannel a (emptied (t.channel a))) s

/-- R85, for one article, after the Copy Directory has emptied its sets (R106). -/
def restartedArticle (r : Article) : Article :=
  let u := { r with holders := [], pins := [] }
  match r.state with
  | .empty => u
  | .live => u
  | .changing => { u with state := .live }
  | .retiring => if r.refs = 0 then Article.powerOn else u

/-- R85 and R106: the Article Table and the Copy Directory. -/
def State.restartArticles (s : State) : State :=
  let t := s.art.articles.foldl (fun u e => u.setArticle e.1 (restartedArticle e.2)) s
  { t with cd := { maps := [], changes := [] } }

/-- R133 and R147, for one ticket, at the moment now with the idle deadline and the expiry deadline given. -/
def restartedTicket (now idle expiry : Nat) (t : Ticket) : Ticket :=
  match t.state with
  | .opened _ => { t with state := .opened idle, lastActivity := now }
  | .parked _ => { t with state := .parked expiry }
  | .printing _ => { t with state := .printWait }
  | .held => t
  | .printWait => t

/-- R133 and R147: the Service Controller, with the NORMAL idle timeout. -/
def State.restartService (s : State) : State :=
  let idle := moment s.op.now (1000 * s.op.settings.idleNormal)
  let t := s.setTickets (s.sc.tickets.map (restartedTicket s.op.now idle s.parkDeadline))
  let u := clerkNumbers.foldl (fun v c => v.setClerk c { v.clerk c with scale := none }) t
  scales.foldl (fun v a => v.setPrintRecord a { v.printRecord a with lastProof := none }) u

/-- The subject of RESTARTED (R191). -/
def restartSubject : StartCause → Nat
  | .command => 1
  | .pin => 2
  | .powerOn => 0

/-- R191 steps 3 to 5: the FIFO emptied, RESTARTED placed, the cause recorded, IRQ evaluated again. -/
def State.restartPort (s : State) (cause : StartCause) : State :=
  ({ s with op := { s.op with fifo := [], overflow := false, startCause := cause, startMoment := s.op.now } }).raise
    .restarted [restartSubject cause]

/-- A warm restart (R191): the watch channels (R172) and the banks (R181) are kept. -/
def State.warmRestart (s : State) (cause : StartCause) : State :=
  ((((((s.restartLine).restartChannels).restartArticles).restartService).enterLevel .normal).restartPort cause).nextSlot

/-! ## Power and the RESET pin (R190, R191) -/

/-- Power-on (R190): every block at its power-on values; the commands still waiting stay, and the model's count of free
values goes on. -/
def State.powerOn (s : State) : State := { State.reset with pending := s.pending, freeCount := s.freeCount }

/-- RESET falls (R191). The model's choice (log entry 10): the visit that ends counts its slot and no miss. -/
def State.resetFall (s : State) : State :=
  if s.op.resetLow then s
  else
    let t := { s with op := { s.op with resetLow := true } }
    match t.lc.visit with
    | some _ => t.endVisit
    | none => t

/-- RESET rises after a low pulse of so many microseconds (R191). The model's choice (log entry 10), where R191 is silent:
after a shorter pulse the deadlines that fell are taken before the Line Controller begins its next visit slot. -/
def State.resetRise (s : State) (lowMicros : Nat) : State :=
  if s.op.resetLow then
    let t := { s with op := { s.op with resetLow := false } }
    if 10 ≤ lowMicros then (t.releaseResponse).warmRestart .pin else (t.takeDue).nextSlot
  else s

/-! ## Counter settings (R185) -/

/-- A field outside its range takes the nearer end. -/
def clampTo (lo hi x : Nat) : Nat := max lo (min hi x)

/-- The settings of a CTR.SET body as they stand. -/
def settingsOf (body : List Byte) : Settings :=
  { replyWindow := field body 1 1, settleTimeout := field body 2 1, increment := field body 3 1
    idleNormal := field body 4 2, idleRush := field body 6 2, parkExpiry := field body 8 2
    printTimeout := field body 10 1, rushThreshold := field body 11 1, calmThreshold := field body 12 1
    residencyNormal := field body 13 2, residencyRush := field body 15 2, priceLock := field body 17 2
    trigger := field body 19 1 }

/-- R185 steps 3 and 4. -/
def clampSettings (c : Settings) : Settings :=
  let rush := clampTo 1 64 c.rushThreshold
  { replyWindow := clampTo 1 20 c.replyWindow, settleTimeout := clampTo 1 60 c.settleTimeout, increment := c.increment
    idleNormal := clampTo 30 600 c.idleNormal, idleRush := clampTo 15 300 c.idleRush
    parkExpiry := clampTo 60 3600 c.parkExpiry, printTimeout := clampTo 5 60 c.printTimeout
    rushThreshold := rush, calmThreshold := min (rush - 1) c.calmThreshold
    residencyNormal := clampTo 0 600 c.residencyNormal, residencyRush := clampTo 0 600 c.residencyRush
    priceLock := clampTo 1 2049 c.priceLock, trigger := clampTo 1 16 c.trigger }

/-- The settings stored; a changed increment evaluates every channel (R62), and IRQ is evaluated again (R188). The model's
choice (log entry 20), where R62 stands against R52: a channel whose verdict holds no price is evaluated as any other, so
that a price over the range may come into it and a scale just joined in PROOF takes its mark. -/
def State.storeSettings (s : State) (c : Settings) : State :=
  let t := { s with op := OfficePort.evalIrq { s.op with settings := c } }
  if c.increment = s.op.settings.increment then t else scales.foldl State.evaluate t

/-- R185 step 2: the increments that are accepted. -/
def incrementSound (d : Nat) : Bool := d == 1 || d == 5 || d == 10

/-- CTR.SET (R185). -/
def State.ctrSet (s : State) (body : List Byte) : State × Answer :=
  if body.length ≠ 19 then (s, .refuse .badArg)
  else
    let raw := settingsOf body
    if incrementSound raw.increment then
      (s.storeSettings (clampSettings raw), .clamp (decide (clampSettings raw ≠ raw)))
    else (s, .refuse .badArg)

/-- The layout of R185. -/
def settingsChars (c : Settings) : List Byte :=
  chars 1 c.replyWindow ++ chars 1 c.settleTimeout ++ chars 1 c.increment ++ chars 2 c.idleNormal ++ chars 2 c.idleRush
    ++ chars 2 c.parkExpiry ++ chars 1 c.printTimeout ++ chars 1 c.rushThreshold ++ chars 1 c.calmThreshold
    ++ chars 2 c.residencyNormal ++ chars 2 c.residencyRush ++ chars 2 c.priceLock ++ chars 1 c.trigger

/-- CTR.READ (R185). -/
def State.ctrRead (s : State) (body : List Byte) : State × Answer :=
  if body.length ≠ 0 then (s, .refuse .badArg) else (s, .ok (settingsChars s.op.settings ++ chars 4 s.op.clock))

/-- CTR.TIME (R186). -/
def State.ctrTime (s : State) (body : List Byte) : State × Answer :=
  if body.length ≠ 4 then (s, .refuse .badArg)
  else ({ s with op := { s.op with clock := field body 1 4, clockBase := s.op.now } }, .ok [])

/-- CTR.RESTART (R191): its response is stored after the restart. -/
def State.ctrRestart (s : State) (body : List Byte) : State × Answer :=
  if body.length ≠ 0 then (s, .refuse .badArg) else (s.warmRestart .command, .ok [])

/-! ## Status (R189) -/

/-- The number of stations in service. -/
def State.inServiceCount (s : State) : Nat := (stationAddresses.filter s.inService).length

/-- The response body of CTR.STATUS (R189). The model's reading (log entry 9), where R189 and R184 leave it open: the
state of IRQ is sent as a mark, 1 asserted and 0 deasserted. -/
def State.statusChars (s : State) : List Byte :=
  chars 1 (causeCode s.op.startCause) ++ secondsChars ((s.op.now - s.op.startMoment) / 1000) ++ chars 4 s.op.clock
    ++ chars 1 s.op.fifo.length ++ markChar s.op.overflow ++ chars 1 s.op.settings.trigger ++ markChar s.op.irq
    ++ chars 4 s.inServiceCount ++ chars 4 s.cd.changes.length ++ chars 1 s.sc.tickets.length
    ++ chars 1 (levelCode s.qc.level) ++ chars 1 (bankCode s.tu.live) ++ chars 2 s.liveBank.period
    ++ markChar s.tu.frozen

/-- CTR.STATUS (R189). -/
def State.ctrStatus (s : State) (body : List Byte) : State × Answer :=
  if body.length ≠ 0 then (s, .refuse .badArg) else (s, .ok s.statusChars)

/-! ## Notices (R187) -/

/-- NTC.READ (R187): up to 8 notices removed, IRQ evaluated again (R188). -/
def State.ntcRead (s : State) (body : List Byte) : State × Answer :=
  if body.length ≠ 0 then (s, .refuse .badArg)
  else
    let out := s.op.fifo.take 8
    let left := s.op.fifo.drop 8
    ({ s with op := OfficePort.evalIrq { s.op with fifo := left } },
      .ok (chars 1 out.length ++ markChar s.op.overflow ++ chars 1 left.length ++ out.flatMap noticeChars))

/-- NTC.ACK (R187). -/
def State.ntcAck (s : State) (body : List Byte) : State × Answer :=
  if body.length ≠ 0 then (s, .refuse .badArg)
  else ({ s with op := OfficePort.evalIrq { s.op with overflow := false } }, .ok [])

/-! ## Transactions (R183, R184) -/

/-- The command table of R184. -/
def State.hostCommand (s : State) (code : Nat) (body : List Byte) : State × Answer :=
  match code with
  | 16 => s.artCreate body
  | 17 => s.artChange body
  | 18 => s.artRetire body
  | 19 => s.artRead body
  | 32 => s.stnConfig body
  | 33 => s.stnMode body
  | 34 => s.stnRead body
  | 48 => s.clkEnrol body
  | 49 => s.clkRemove body
  | 50 => s.clkRead body
  | 64 => s.tktRead body
  | 65 => s.tktCancel body
  | 66 => s.tktRelease body
  | 80 => s.queRead body
  | 81 => s.queReset body
  | 96 => s.wchSet body
  | 97 => s.wchRead body
  | 112 => s.totClose body
  | 113 => s.totRead body
  | 114 => s.totClear body
  | 128 => s.ctrSet body
  | 129 => s.ctrRead body
  | 130 => s.ctrTime body
  | 131 => s.ctrRestart body
  | 132 => s.ctrStatus body
  | 144 => s.ntcRead body
  | 145 => s.ntcAck body
  | _ => (s, .refuse .unknown)

/-- A response read of n characters (R183): the stored response and then characters of 0; without one, characters of 0;
ignored while RESET is held low (R191, log entry 21). -/
def State.responseRead (s : State) (n : Nat) : State :=
  if s.op.resetLow then s
  else
    match s.op.response with
    | none => s.sent (List.replicate n 0#8)
    | some r =>
        let out := r.chars
        let t := s.sent ((out ++ List.replicate n 0#8).take n)
        if out.length ≤ n then t.releaseResponse else t

/-- A command frame that is not executed (R183): BAD_ARG is stored; ignored while RESET is held low (R191, log
entry 21). -/
def State.badTransaction (s : State) (code : Byte) (rest : List Byte) : State :=
  if s.op.resetLow then s else (s.answer code (.refuse .badArg)).sent (List.replicate (1 + rest.length) 255#8)

/-- The body of a frame of the stated length, at most 255, after its command code (R183); none for any other frame. -/
def statedBody : List Byte → Option (List Byte)
  | hi :: lo :: body => if body.length = number [hi, lo] ∧ body.length ≤ 255 then some body else none
  | _ => none

/-- A transaction whose first character is code and whose other characters are rest (R183). -/
def State.transaction (s : State) (code : Byte) (rest : List Byte) : State :=
  if code = 0#8 then s.responseRead (1 + rest.length)
  else
    match statedBody rest with
    | some body => s.transact code body (fun t => t.hostCommand code.toNat body)
    | none => s.badTransaction code rest

/-! ## Meanings -/

def execPowerOn (s : State) : Host.Outcome State Fault Refusal := .next s.powerOn

def execResetFall (s : State) : Host.Outcome State Fault Refusal := .next s.resetFall

def execResetRise (lowMicros : Nat) (s : State) : Host.Outcome State Fault Refusal := .next (s.resetRise lowMicros)

def execResponseRead (clocked : Nat) (s : State) : Host.Outcome State Fault Refusal := .next (s.responseRead clocked)

/-- R183. A term whose frame is sound is that frame's transaction (log entry 6). -/
def execBadFrame (code : Byte) (rest : List Byte) (s : State) : Host.Outcome State Fault Refusal :=
  .next (s.transaction code rest)

/-- R183: a transaction too close to the previous one is ignored; the part sends 0 for each character. -/
def execShortTransaction (chars : List Byte) (s : State) : Host.Outcome State Fault Refusal :=
  .next (if s.op.resetLow then s else s.sent (List.replicate chars.length 0#8))

/-- R184. A term whose code is in the table is that command's transaction (log entry 6). -/
def execUnknownCommand (code : Byte) (body : List Byte) (s : State) : Host.Outcome State Fault Refusal :=
  .next (if code = 0#8 then s.responseRead (3 + body.length)
         else s.transact code body (fun t => t.hostCommand code.toNat body))

def execCtrSet (body : List Byte) (s : State) : Host.Outcome State Fault Refusal :=
  .next (s.transact 128 body (fun t => t.ctrSet body))

def execCtrRead (body : List Byte) (s : State) : Host.Outcome State Fault Refusal :=
  .next (s.transact 129 body (fun t => t.ctrRead body))

def execCtrTime (body : List Byte) (s : State) : Host.Outcome State Fault Refusal :=
  .next (s.transact 130 body (fun t => t.ctrTime body))

def execCtrRestart (body : List Byte) (s : State) : Host.Outcome State Fault Refusal :=
  .next (s.transact 131 body (fun t => t.ctrRestart body))

def execCtrStatus (body : List Byte) (s : State) : Host.Outcome State Fault Refusal :=
  .next (s.transact 132 body (fun t => t.ctrStatus body))

def execNtcRead (body : List Byte) (s : State) : Host.Outcome State Fault Refusal :=
  .next (s.transact 144 body (fun t => t.ntcRead body))

def execNtcAck (body : List Byte) (s : State) : Host.Outcome State Fault Refusal :=
  .next (s.transact 145 body (fun t => t.ntcAck body))

/-- R183: nothing is stored and nothing is released. -/
def execEmptyTransaction (s : State) : Host.Outcome State Fault Refusal :=
  .next (if s.op.resetLow then s else s.sent [])

end Sys2Proof.Machine
end

