-- ==== Sys2Proof/Machine/Dispatch.lean ====
section
/-! DEFINITION. One arm per command. -/

namespace Sys2Proof.Machine

def exec (i : Instr) (s : State) : Host.Outcome State Fault Refusal :=
  match i with
  | .powerOn => Sys2Proof.Machine.execPowerOn s
  | .resetFall => Sys2Proof.Machine.execResetFall s
  | .resetRise lowMicros => Sys2Proof.Machine.execResetRise lowMicros s
  | .responseRead clocked => Sys2Proof.Machine.execResponseRead clocked s
  | .badFrame code rest => Sys2Proof.Machine.execBadFrame code rest s
  | .shortTransaction chars => Sys2Proof.Machine.execShortTransaction chars s
  | .unknownCommand code body => Sys2Proof.Machine.execUnknownCommand code body s
  | .artCreate body => Sys2Proof.Machine.execArtCreate body s
  | .artChange body => Sys2Proof.Machine.execArtChange body s
  | .artRetire body => Sys2Proof.Machine.execArtRetire body s
  | .artRead body => Sys2Proof.Machine.execArtRead body s
  | .stnConfig body => Sys2Proof.Machine.execStnConfig body s
  | .stnMode body => Sys2Proof.Machine.execStnMode body s
  | .stnRead body => Sys2Proof.Machine.execStnRead body s
  | .clkEnrol body => Sys2Proof.Machine.execClkEnrol body s
  | .clkRemove body => Sys2Proof.Machine.execClkRemove body s
  | .clkRead body => Sys2Proof.Machine.execClkRead body s
  | .tktRead body => Sys2Proof.Machine.execTktRead body s
  | .ticketDirectory => Sys2Proof.Machine.execTicketDirectory s
  | .tktCancel body => Sys2Proof.Machine.execTktCancel body s
  | .tktRelease body => Sys2Proof.Machine.execTktRelease body s
  | .queRead body => Sys2Proof.Machine.execQueRead body s
  | .queReset body => Sys2Proof.Machine.execQueReset body s
  | .wchSet body => Sys2Proof.Machine.execWchSet body s
  | .wchRead body => Sys2Proof.Machine.execWchRead body s
  | .totClose body => Sys2Proof.Machine.execTotClose body s
  | .totRead body => Sys2Proof.Machine.execTotRead body s
  | .totClear body => Sys2Proof.Machine.execTotClear body s
  | .ctrSet body => Sys2Proof.Machine.execCtrSet body s
  | .ctrRead body => Sys2Proof.Machine.execCtrRead body s
  | .ctrTime body => Sys2Proof.Machine.execCtrTime body s
  | .ctrRestart body => Sys2Proof.Machine.execCtrRestart body s
  | .ctrStatus body => Sys2Proof.Machine.execCtrStatus body s
  | .ntcRead body => Sys2Proof.Machine.execNtcRead body s
  | .ntcAck body => Sys2Proof.Machine.execNtcAck body s
  | .clockTick => Sys2Proof.Machine.execClockTick s
  | .downstreamSent => Sys2Proof.Machine.execDownstreamSent s
  | .replyFrame chars => Sys2Proof.Machine.execReplyFrame chars s
  | .replyWindowExpiry => Sys2Proof.Machine.execReplyWindowExpiry s
  | .replyIncomplete => Sys2Proof.Machine.execReplyIncomplete s
  | .samples scale readings => Sys2Proof.Machine.execSamples scale readings s
  | .select scale article => Sys2Proof.Machine.execSelect scale article s
  | .clear scale => Sys2Proof.Machine.execClear scale s
  | .tare scale => Sys2Proof.Machine.execTare scale s
  | .ptare scale grams => Sys2Proof.Machine.execPtare scale grams s
  | .clrtare scale => Sys2Proof.Machine.execClrtare scale s
  | .zero scale => Sys2Proof.Machine.execZero scale s
  | .qty scale quantity => Sys2Proof.Machine.execQty scale quantity s
  | .login scale clerk => Sys2Proof.Machine.execLogin scale clerk s
  | .logout scale => Sys2Proof.Machine.execLogout scale s
  | .newTicket scale => Sys2Proof.Machine.execNew scale s
  | .switch scale ticket => Sys2Proof.Machine.execSwitch scale ticket s
  | .add scale stamp => Sys2Proof.Machine.execAdd scale stamp s
  | .label scale stamp => Sys2Proof.Machine.execLabel scale stamp s
  | .voidItem scale position => Sys2Proof.Machine.execVoidItem scale position s
  | .voidTicket scale => Sys2Proof.Machine.execVoidTicket scale s
  | .close scale => Sys2Proof.Machine.execClose scale s
  | .release scale ticket => Sys2Proof.Machine.execRelease scale ticket s
  | .next scale => Sys2Proof.Machine.execNext scale s
  | .recallNumber scale => Sys2Proof.Machine.execRecall scale s
  | .skip scale => Sys2Proof.Machine.execSkip scale s
  | .override scale article unitPrice => Sys2Proof.Machine.execOverride scale article unitPrice s
  | .unknownAction scale code => Sys2Proof.Machine.execUnknownAction scale code s
  | .purged scale article => Sys2Proof.Machine.execPurged scale article s
  | .printed scale tag ok => Sys2Proof.Machine.execPrinted scale tag ok s
  | .take => Sys2Proof.Machine.execTake s
  | .settleTimeout article => Sys2Proof.Machine.execSettleTimeout article s
  | .idleDeadlineExpiry ticket => Sys2Proof.Machine.execIdleDeadlineExpiry ticket s
  | .expiryDeadlineExpiry ticket => Sys2Proof.Machine.execExpiryDeadlineExpiry ticket s
  | .printDeadlineExpiry ticket => Sys2Proof.Machine.execPrintDeadlineExpiry ticket s
  | .residencyExpiry => Sys2Proof.Machine.execResidencyExpiry s
  | .lineCharactersOutsideVisit chars => Sys2Proof.Machine.execLineCharactersOutsideVisit chars s
  | .emptyTransaction => Sys2Proof.Machine.execEmptyTransaction s

end Sys2Proof.Machine
end

