-- ==== Sys2Proof/WellFormed.lean ====
section
/-! DEFINITION. Which terms of Instr spell a command that can arrive at the part: operands in the ranges their frames
and transactions can carry. exec is total and needs none of it; what it does on other terms is log entry 6. -/

namespace Sys2Proof

/-- The command codes of R184. -/
def hostCodes : List Nat :=
  [16, 17, 18, 19, 32, 33, 34, 48, 49, 50, 64, 65, 66, 80, 81, 96, 97, 112, 113, 114, 128, 129, 130, 131, 132, 144, 145]

/-- The stated length of a command frame whose characters after the code are rest, where rest holds one (R183). -/
def statedLength : List Byte → Option Nat
  | hi :: lo :: _ => some (hi.toNat * 256 + lo.toNat)
  | _ => none

/-- A frame of the stated length, at most 255 (R183). -/
def frameSound (rest : List Byte) : Bool :=
  match statedLength rest with
  | some n => n ≤ 255 && rest.length == n + 2
  | none => false

/-- A scale's station address (00_scope.md, Station address plan). -/
def scaleAddress (a : Nat) : Bool := 1 ≤ a && a ≤ 16

/-- A body that a command frame can carry (R183). -/
def bodySound (body : List Byte) : Bool := body.length ≤ 255

/-- An argument of two characters (R22). -/
def argSound (n : Nat) : Bool := n < 65536

/-- The range of a reading (R28). -/
def readingSound : Reading → Bool
  | .ok v => -8388608 ≤ v && v ≤ 8388607
  | .fault => true

/-- The command's operands are ones that can arrive. -/
def Instr.wf : Instr → Bool
  | .powerOn => true
  | .resetFall => true
  | .resetRise _ => true
  | .responseRead n => 1 ≤ n
  | .badFrame code rest => code != 0 && !frameSound rest
  | .shortTransaction _ => true
  | .unknownCommand code body => code != 0 && !hostCodes.contains code.toNat && bodySound body
  | .artCreate b => bodySound b
  | .artChange b => bodySound b
  | .artRetire b => bodySound b
  | .artRead b => bodySound b
  | .stnConfig b => bodySound b
  | .stnMode b => bodySound b
  | .stnRead b => bodySound b
  | .clkEnrol b => bodySound b
  | .clkRemove b => bodySound b
  | .clkRead b => bodySound b
  | .tktRead b => bodySound b
  | .ticketDirectory => true
  | .tktCancel b => bodySound b
  | .tktRelease b => bodySound b
  | .queRead b => bodySound b
  | .queReset b => bodySound b
  | .wchSet b => bodySound b
  | .wchRead b => bodySound b
  | .totClose b => bodySound b
  | .totRead b => bodySound b
  | .totClear b => bodySound b
  | .ctrSet b => bodySound b
  | .ctrRead b => bodySound b
  | .ctrTime b => bodySound b
  | .ctrRestart b => bodySound b
  | .ctrStatus b => bodySound b
  | .ntcRead b => bodySound b
  | .ntcAck b => bodySound b
  | .clockTick => true
  | .downstreamSent => true
  | .replyFrame chars => 6 ≤ chars.length
  | .replyWindowExpiry => true
  | .replyIncomplete => true
  | .samples a rs => scaleAddress a && 1 ≤ rs.length && rs.length ≤ 4 && rs.all readingSound
  | .select a n => scaleAddress a && argSound n
  | .clear a => scaleAddress a
  | .tare a => scaleAddress a
  | .ptare a g => scaleAddress a && argSound g
  | .clrtare a => scaleAddress a
  | .zero a => scaleAddress a
  | .qty a n => scaleAddress a && argSound n
  | .login a c => scaleAddress a && argSound c
  | .logout a => scaleAddress a
  | .newTicket a => scaleAddress a
  | .switch a t => scaleAddress a && argSound t
  | .add a st => scaleAddress a && argSound st
  | .label a st => scaleAddress a && argSound st
  | .voidItem a p => scaleAddress a && argSound p
  | .voidTicket a => scaleAddress a
  | .close a => scaleAddress a
  | .release a t => scaleAddress a && argSound t
  | .next a => scaleAddress a
  | .recallNumber a => scaleAddress a
  | .skip a => scaleAddress a
  | .override a n p => scaleAddress a && argSound n && p < 16777216
  | .unknownAction a code => scaleAddress a && code < 256 && !(1 ≤ code && code ≤ 21)
  | .purged a n => scaleAddress a && n.all (fun k => 1 ≤ k && k ≤ 2048)
  | .printed a tag _ => scaleAddress a && tag < 256
  | .take => true
  | .settleTimeout n => 1 ≤ n && n ≤ 2048
  | .idleDeadlineExpiry t => 1 ≤ t && t ≤ 999
  | .expiryDeadlineExpiry t => 1 ≤ t && t ≤ 999
  | .printDeadlineExpiry t => 1 ≤ t && t ≤ 999
  | .residencyExpiry => true
  | .lineCharactersOutsideVisit _ => true
  | .emptyTransaction => true

/-- The command code and the body of the frame that a host command of R184 stands for; TICKET_DIRECTORY is TKT.READ of
the number 0 (R131). The other rows are no command of R184. -/
def Instr.hostFrame : Instr → Option (Nat × List Byte)
  | .powerOn => none
  | .resetFall => none
  | .resetRise _ => none
  | .responseRead _ => none
  | .badFrame _ _ => none
  | .shortTransaction _ => none
  | .unknownCommand _ _ => none
  | .artCreate b => some (16, b)
  | .artChange b => some (17, b)
  | .artRetire b => some (18, b)
  | .artRead b => some (19, b)
  | .stnConfig b => some (32, b)
  | .stnMode b => some (33, b)
  | .stnRead b => some (34, b)
  | .clkEnrol b => some (48, b)
  | .clkRemove b => some (49, b)
  | .clkRead b => some (50, b)
  | .tktRead b => some (64, b)
  | .ticketDirectory => some (64, [0#8, 0#8])
  | .tktCancel b => some (65, b)
  | .tktRelease b => some (66, b)
  | .queRead b => some (80, b)
  | .queReset b => some (81, b)
  | .wchSet b => some (96, b)
  | .wchRead b => some (97, b)
  | .totClose b => some (112, b)
  | .totRead b => some (113, b)
  | .totClear b => some (114, b)
  | .ctrSet b => some (128, b)
  | .ctrRead b => some (129, b)
  | .ctrTime b => some (130, b)
  | .ctrRestart b => some (131, b)
  | .ctrStatus b => some (132, b)
  | .ntcRead b => some (144, b)
  | .ntcAck b => some (145, b)
  | .clockTick => none
  | .downstreamSent => none
  | .replyFrame _ => none
  | .replyWindowExpiry => none
  | .replyIncomplete => none
  | .samples _ _ => none
  | .select _ _ => none
  | .clear _ => none
  | .tare _ => none
  | .ptare _ _ => none
  | .clrtare _ => none
  | .zero _ => none
  | .qty _ _ => none
  | .login _ _ => none
  | .logout _ => none
  | .newTicket _ => none
  | .switch _ _ => none
  | .add _ _ => none
  | .label _ _ => none
  | .voidItem _ _ => none
  | .voidTicket _ => none
  | .close _ => none
  | .release _ _ => none
  | .next _ => none
  | .recallNumber _ => none
  | .skip _ => none
  | .override _ _ _ => none
  | .unknownAction _ _ => none
  | .purged _ _ => none
  | .printed _ _ _ => none
  | .take => none
  | .settleTimeout _ => none
  | .idleDeadlineExpiry _ => none
  | .expiryDeadlineExpiry _ => none
  | .printDeadlineExpiry _ => none
  | .residencyExpiry => none
  | .lineCharactersOutsideVisit _ => none
  | .emptyTransaction => none

end Sys2Proof
end

