-- ==== Sys2Proof/Safety.lean ====
section
/-! DEFINITION. What claims are stated in: which blocks an event leaves alone, when the part takes a message, what a
REPLY shows, the invariants of the part, and what a restart, a departure from service, the opening of a change, the end of
a pin, a CALLOUT, a change of the rush level and a posting leave (R10, R17, R18, R20, R23, R97, R99, R114, R149, R152, R153,
R157, R158, R173 to R177, R183, R187, R188). -/

namespace Sys2Proof.Machine

/-! ## Frames -/

/-- The blocks of 00_scope.md, the count of free values and the queue of pending commands. -/
inductive Block
  | lc
  | we
  | art
  | cd
  | sc
  | qc
  | wu
  | tu
  | op
  | free
  | pending
  deriving DecidableEq, Repr

/-- A block is the same in two states. -/
def State.same (s t : State) : Block → Prop
  | .lc => t.lc = s.lc
  | .we => t.we = s.we
  | .art => t.art = s.art
  | .cd => t.cd = s.cd
  | .sc => t.sc = s.sc
  | .qc => t.qc = s.qc
  | .wu => t.wu = s.wu
  | .tu => t.tu = s.tu
  | .op => t.op = s.op
  | .free => t.freeCount = s.freeCount
  | .pending => t.pending = s.pending

/-- Every block outside the list is unchanged. -/
structure Changes (l : List Block) (s t : State) : Prop where
  frame : ∀ b, b ∉ l → s.same t b

/-- The blocks that a command may change: a host command also changes the Office Port, which stores its response, and a
message also the Line Controller, which takes it. -/
def touches : Instr → List Block
  | .powerOn => [.lc, .we, .art, .cd, .sc, .qc, .wu, .tu, .op]
  | .resetFall => [.lc, .op]
  | .resetRise _ => [.lc, .we, .art, .cd, .sc, .qc, .tu, .op, .free]
  | .responseRead _ => [.op]
  | .badFrame _ _ => [.lc, .we, .art, .cd, .sc, .qc, .wu, .tu, .op]
  | .shortTransaction _ => [.op]
  | .unknownCommand _ _ => [.lc, .we, .art, .cd, .sc, .qc, .wu, .tu, .op]
  | .artCreate _ => [.art, .op]
  | .artChange _ => [.art, .lc, .cd, .op]
  | .artRetire _ => [.art, .lc, .cd, .op]
  | .artRead _ => [.op]
  | .stnConfig _ => [.we, .op]
  | .stnMode _ => [.lc, .sc, .we, .art, .cd, .op]
  | .stnRead _ => [.op]
  | .clkEnrol _ => [.sc, .op]
  | .clkRemove _ => [.sc, .we, .art, .lc, .cd, .op]
  | .clkRead _ => [.op]
  | .tktRead _ => [.op]
  | .ticketDirectory => [.op]
  | .tktCancel _ => [.sc, .we, .art, .tu, .op]
  | .tktRelease _ => [.sc, .op]
  | .queRead _ => [.op]
  | .queReset _ => [.qc, .sc, .we, .lc, .op]
  | .wchSet _ => [.wu, .op]
  | .wchRead _ => [.op]
  | .totClose _ => [.tu, .op]
  | .totRead _ => [.op]
  | .totClear _ => [.tu, .op]
  | .ctrSet _ => [.we, .lc, .op]
  | .ctrRead _ => [.op]
  | .ctrTime _ => [.op]
  | .ctrRestart _ => [.lc, .we, .art, .cd, .sc, .qc, .op]
  | .ctrStatus _ => [.op]
  | .ntcRead _ => [.op]
  | .ntcAck _ => [.op]
  | .clockTick => [.op]
  | .downstreamSent => [.lc]
  | .replyFrame _ => [.lc, .we, .art, .cd, .sc, .qc, .wu, .tu, .op]
  | .replyWindowExpiry => [.lc, .sc, .we, .art, .cd, .op]
  | .replyIncomplete => [.lc, .sc, .we, .art, .cd, .op]
  | .samples _ _ => [.we, .lc]
  | .select _ _ => [.we, .art, .lc, .cd, .op]
  | .clear _ => [.we, .art, .lc, .cd, .op]
  | .tare _ => [.we, .lc]
  | .ptare _ _ => [.we, .lc]
  | .clrtare _ => [.we, .lc]
  | .zero _ => [.we, .lc]
  | .qty _ _ => [.we, .lc]
  | .login _ _ => [.sc, .we, .art, .lc, .cd, .op]
  | .logout _ => [.sc, .we, .art, .lc, .cd, .op]
  | .newTicket _ => [.sc, .we, .lc]
  | .switch _ _ => [.sc, .we, .lc]
  | .add _ _ => [.sc, .art, .we, .lc, .cd, .op, .wu]
  | .label _ _ => [.sc, .art, .we, .lc, .cd, .op, .wu]
  | .voidItem _ _ => [.sc, .lc, .wu, .op]
  | .voidTicket _ => [.sc, .we, .art, .tu, .op, .lc]
  | .close _ => [.sc, .we, .art, .lc]
  | .release _ _ => [.sc, .lc]
  | .next _ => [.qc, .sc, .we, .op, .lc]
  | .recallNumber _ => [.qc, .lc]
  | .skip _ => [.sc, .we, .art, .qc, .lc]
  | .override _ _ _ => [.art, .lc, .cd, .op]
  | .unknownAction _ _ => [.lc]
  | .purged _ _ => [.cd, .art, .op, .lc]
  | .printed _ _ _ => [.sc, .we, .art, .tu, .op, .lc]
  | .take => [.qc, .sc, .we, .op, .lc]
  | .settleTimeout _ => [.lc, .we, .art, .cd, .op]
  | .idleDeadlineExpiry _ => [.sc, .we, .op]
  | .expiryDeadlineExpiry _ => [.sc, .we, .art, .tu, .op]
  | .printDeadlineExpiry _ => [.lc, .sc, .op]
  | .residencyExpiry => [.qc, .sc, .we, .op, .lc]
  | .lineCharactersOutsideVisit _ => []
  | .emptyTransaction => [.op]

/-- Every station record but that of a is unchanged, and so is the rest of the Line Controller. -/
def StationOnly (a : Nat) (s t : State) : Prop :=
  (∀ b, b ≠ a → t.station b = s.station b) ∧ t.lc = { s.lc with stations := t.lc.stations }

/-- Every channel but that of a is unchanged. -/
def ChannelOnly (a : Nat) (s t : State) : Prop := ∀ b, b ≠ a → t.channel b = s.channel b

/-! ## Messages taken and answered -/

/-- A new message of scale a is taken whatever room there is (R14, R15): the scale in service, RESET high. -/
def State.hears (s : State) (a : Nat) : Prop := isScale a = true ∧ s.inService a = true ∧ s.op.resetLow = false

/-- A new ACTION of scale a is taken (R14, R15): also at least 3 free entries. -/
def State.takes (s : State) (a : Nat) : Prop := s.hears a ∧ s.admits a = true

/-- The last entry of the station's queue is the REPLY to an action, not yet sent (R17, R22). -/
def State.answered (t : State) (a action : Nat) (code : ReplyCode) (data : List Byte) : Prop :=
  (t.station a).queue.getLast? = some { msg := .reply action code data, sent := false }

/-- What a message taken from scale a leaves of the Line Controller, whatever its owner offers that scale alone: its last
U-seq taken has its other value (R14), its queue, purge backlog and SHOW owed mark may differ, and nothing else. -/
def State.took (s t : State) (a : Nat) : Prop :=
  StationOnly a s t ∧ ∃ q b o, t.station a =
    { s.station a with queue := q, backlog := b, showOwed := o, lastU := !(s.station a).lastU }

/-- A scale action is taken and refused: beside its U-seq and its REPLY, with the code and no data, nothing changes. -/
def State.turnsAway (s : State) (i : Instr) (a action : Nat) (code : ReplyCode) : Prop :=
  exec i s = .next ((s.markTaken a).reply a action code [])

/-- A scale with its clerk logged in, in NORMAL or DETACHED: checks that most actions share. -/
def State.mans (s : State) (a c : Nat) : Prop := s.clerkAt a = some c ∧ (s.station a).state ≠ .proof

/-- A channel after an evaluation that forms the verdict v (R50, R52). -/
def judged (ch : Channel) (v : Verdict) : Channel :=
  if v = ch.verdict then ch else { ch with verdict := v, stamp := nextStamp ch.stamp }

/-- The verdict that an evaluation of scale a forms from a channel (R52), with the increment and the proof mark of the
state. -/
def State.verdictOf (s : State) (a : Nat) (ch : Channel) : Verdict :=
  formVerdict ch s.op.settings.increment (decide ((s.station a).state = .proof))

/-- A weighing action accepted (R45): the channel of its scale becomes ch, evaluated, the REPLY is OK, and nothing else
changes but what the scale is offered. -/
def State.weighs (s : State) (i : Instr) (a action : Nat) (ch : Channel) : Prop :=
  ∃ t, exec i s = .next t ∧ t.answered a action .ok [] ∧ s.took t a ∧ t.channel a = judged ch (s.verdictOf a ch)
    ∧ ChannelOnly a s t ∧ Changes [.we, .lc] s t

/-- A ticket removed (R125 steps 2 to 6): its record and its owner's active ticket gone, and the reference counts of its
items' articles lowered. -/
def State.removed (s t : State) (k : Ticket) : Prop :=
  t.sc.tickets = s.sc.tickets.filter (fun x => x.number != k.number)
    ∧ ((s.clerk k.clerk).active = some k.number → (t.clerk k.clerk).active = none)
    ∧ (∀ c, c ≠ k.clerk → t.clerk c = s.clerk c)
    ∧ ∀ n, (t.article n).refs = (s.article n).refs - (k.items.filter (fun i => i.article == n)).length

/-- The message row that a message of a good reply from station a is taken as (R22): NIL carries none. -/
def messageRow (a : Nat) : UpMsg → Option Instr
  | .nil => none
  | .samples rs => some (.samples a rs)
  | .action (.select n) => some (.select a n)
  | .action .clear => some (.clear a)
  | .action .tare => some (.tare a)
  | .action (.ptare g) => some (.ptare a g)
  | .action .clrtare => some (.clrtare a)
  | .action .zero => some (.zero a)
  | .action (.qty n) => some (.qty a n)
  | .action (.login c) => some (.login a c)
  | .action .logout => some (.logout a)
  | .action .newTicket => some (.newTicket a)
  | .action (.switch n) => some (.switch a n)
  | .action (.add st) => some (.add a st)
  | .action (.label st) => some (.label a st)
  | .action (.voidItem p) => some (.voidItem a p)
  | .action .voidTicket => some (.voidTicket a)
  | .action .close => some (.close a)
  | .action (.release n) => some (.release a n)
  | .action .next => some (.next a)
  | .action .recall => some (.recallNumber a)
  | .action .skip => some (.skip a)
  | .action (.override n p) => some (.override a n p)
  | .action (.unknown c) => some (.unknownAction a c)
  | .purged n => some (.purged a n)
  | .printed tag ok => some (.printed a tag ok)
  | .take => some .take

/-- The result of a host command stored for the host (R183): the answer to a command code, READY asserted, and the
characters sent meanwhile. -/
def State.responded (s : State) (code : Byte) (result : ResultCode) (clamped : Bool) (body : List Byte) (sent : Nat) :
    State :=
  { s with op := { s.op with
      response := some { code := code, result := result, clamped := clamped, body := body }, ready := true,
      spiOut := List.replicate sent 255#8 } }

/-- The number of body characters of a command of R184 whose body has one length (R27, R69, R74, R79, R109 to R111, R128 to
R130, R160, R161, R165, R171, R178 to R180, R185 to R187, R189, R191); ART.CREATE and ART.CHANGE have a name of any
length. -/
def fixedLength : Nat → Option Nat
  | 18 => some 2
  | 19 => some 2
  | 32 => some 15
  | 33 => some 2
  | 34 => some 1
  | 48 => some 2
  | 49 => some 1
  | 50 => some 1
  | 64 => some 2
  | 65 => some 2
  | 66 => some 2
  | 80 => some 0
  | 81 => some 1
  | 96 => some 12
  | 97 => some 1
  | 112 => some 0
  | 113 => some 4
  | 114 => some 0
  | 128 => some 19
  | 129 => some 0
  | 130 => some 4
  | 131 => some 0
  | 132 => some 0
  | 144 => some 0
  | 145 => some 0
  | _ => none

/-- A body of ART.CREATE or ART.CHANGE of the layout of R69 for an article number of 1 to 2048. -/
def contentLaidOut (body : List Byte) : Prop :=
  10 ≤ body.length ∧ body.length = 10 + field body 10 1 ∧ 1 ≤ field body 1 2 ∧ field body 1 2 ≤ 2048

/-- The ranges of R69 that refuse: sale mode, unit price, preset tare and name. -/
def contentInRange (body : List Byte) : Prop :=
  (1 ≤ field body 3 1 ∧ field body 3 1 ≤ 3) ∧ (1 ≤ field body 4 3 ∧ field body 4 3 ≤ 99999) ∧ field body 8 2 ≤ 9999
    ∧ (11 ≤ body.length ∧ body.length ≤ 34) ∧ ∀ c ∈ body.drop 10, 32 ≤ c.toNat ∧ c.toNat ≤ 126

/-- The content that the fields of a body give, with a markdown of 91 to 255 stored as 90 (R69). -/
def Content.isOf (c : Content) (body : List Byte) : Prop :=
  c.name = body.drop 10 ∧ saleCode c.mode = field body 3 1 ∧ c.price = field body 4 3
    ∧ c.markdown = min 90 (field body 7 1) ∧ c.tare = field body 8 2

/-- A command that needs no more than an SPI transaction: the host's rows (R183, R184). -/
def hostRow : Instr → Bool
  | .responseRead _ => true
  | .badFrame _ _ => true
  | .shortTransaction _ => true
  | .unknownCommand _ _ => true
  | .emptyTransaction => true
  | i => i.hostFrame.isSome

/-- The moment s itself, with another time base: all that a deadline does while RESET is low (R191). -/
def State.later (s t : State) : Prop := ∃ m, s.op.now ≤ m ∧ t = { s with op := { s.op with now := m } }

/-- A message that a station of the kind may send, with every field in the range its characters carry (R22). -/
def sendable (k : StationKind) : UpMsg → Bool
  | .nil => true
  | .samples rs => k == .scale && decide (1 ≤ rs.length) && decide (rs.length ≤ 4) && rs.all readingSound
  | .action act => k == .scale &&
      match act with
      | .select n => argSound n
      | .ptare n => argSound n
      | .qty n => argSound n
      | .login n => argSound n
      | .switch n => argSound n
      | .add n => argSound n
      | .label n => argSound n
      | .voidItem n => argSound n
      | .release n => argSound n
      | .override n p => argSound n && decide (p < 16777216)
      | .unknown c => decide (c < 256) && !(decide (1 ≤ c) && decide (c ≤ 21))
      | _ => true
  | .purged n => k == .scale && n.all (fun m => decide (1 ≤ m) && decide (m ≤ 2048))
  | .printed tag _ => k == .scale && decide (tag < 256)
  | .take => k == .dispenser

/-! ## The warm restart -/

/-- A station after the restart (R23). -/
def stationAfter (st : Station) : Station :=
  { st with state := if st.state = .off then .off else .absent, queue := [], backlog := .articles [], miss := 0,
            holdOff := false, showOwed := false }

/-- An article after the restart (R85, R106). -/
def articleAfter (r : Article) : Article :=
  match r.state with
  | .empty => { r with holders := [], pins := [] }
  | .live => { r with holders := [], pins := [] }
  | .changing => { r with state := .live, holders := [], pins := [] }
  | .retiring => if r.refs = 0 then Article.powerOn else { r with holders := [], pins := [] }

/-- A ticket after the restart at moment m, with an idle deadline and an expiry deadline of that moment (R133, R147). -/
def ticketAfter (m idle expiry : Nat) (t : Ticket) : Ticket :=
  match t.state with
  | .opened _ => { t with state := .opened idle, lastActivity := m }
  | .held => t
  | .parked _ => { t with state := .parked expiry }
  | .printing _ => { t with state := .printWait }
  | .printWait => t

/-- What a warm restart leaves of every block (R23, R47, R85, R106, R133, R147, R157, R162, R172, R181, R191), with its
cause as the start cause and as the subject of RESTARTED. -/
structure State.Restarted (s t : State) (cause : StartCause) (subject : Nat) : Prop where
  stations : ∀ a, 1 ≤ a → a ≤ 18 → t.station a = stationAfter (s.station a)
  visits : ∀ v, t.lc.visit = some v → v.probe = true
  slots : t.lc.visitPtr = 1 ∧ t.lc.slotCount = 1
    ∧ t.lc.probePtr = (match t.lc.visit with | some v => v.station | none => 1)
  channels : ∀ a, 1 ≤ a → a ≤ 16 → t.channel a = { Channel.powerOn with config := (s.channel a).config }
  articles : ∀ n, t.article n = articleAfter (s.article n)
  copies : t.cd = { maps := [], changes := [] }
  clerks : ∀ c, 1 ≤ c → c ≤ 24 → t.clerk c = { s.clerk c with scale := none }
  tickets : t.sc.tickets = s.sc.tickets.map (ticketAfter s.op.now (moment s.op.now (1000 * s.op.settings.idleNormal))
    (moment s.op.now (1000 * s.op.settings.parkExpiry)))
  lastTicket : t.sc.lastTicket = s.sc.lastTicket
  prints : ∀ a, 1 ≤ a → a ≤ 16 → t.printRecord a = { s.printRecord a with lastProof := none }
  queue : t.qc = { s.qc with level := .normal, entered := s.op.now, residencyPending := true,
                             residency := moment s.op.now (1000 * s.op.settings.residencyNormal) }
  watch : t.wu = s.wu
  totals : t.tu = s.tu
  time : t.op.now = s.op.now ∧ t.op.clock = s.op.clock ∧ t.op.clockBase = s.op.clockBase
  settings : t.op.settings = s.op.settings
  notices : t.op.fifo = [{ kind := .restarted, time := s.op.clock, subjects := [subject] }] ∧ t.op.overflow = false
  start : t.op.startCause = cause ∧ t.op.startMoment = s.op.now
  line : t.op.irq = decide (s.op.settings.trigger ≤ 1)

/-! ## Invariants -/

/-- READY is asserted exactly while a response is stored (R183); IRQ stands as R188 says; the FIFO holds at most 32
notices (R187). -/
def OfficePort.sound (p : OfficePort) : Prop :=
  p.ready = p.response.isSome ∧ p.irq = irqLevel p ∧ p.fifo.length ≤ 32

/-- The accepted ranges of the counter settings, after R185 steps 2 to 4. -/
def Settings.sound (c : Settings) : Prop :=
  (1 ≤ c.replyWindow ∧ c.replyWindow ≤ 20) ∧ (1 ≤ c.settleTimeout ∧ c.settleTimeout ≤ 60)
    ∧ (c.increment = 1 ∨ c.increment = 5 ∨ c.increment = 10) ∧ (30 ≤ c.idleNormal ∧ c.idleNormal ≤ 600)
    ∧ (15 ≤ c.idleRush ∧ c.idleRush ≤ 300) ∧ (60 ≤ c.parkExpiry ∧ c.parkExpiry ≤ 3600)
    ∧ (5 ≤ c.printTimeout ∧ c.printTimeout ≤ 60) ∧ (1 ≤ c.rushThreshold ∧ c.rushThreshold ≤ 64)
    ∧ c.calmThreshold < c.rushThreshold ∧ c.residencyNormal ≤ 600 ∧ c.residencyRush ≤ 600
    ∧ (1 ≤ c.priceLock ∧ c.priceLock ≤ 2049) ∧ (1 ≤ c.trigger ∧ c.trigger ≤ 16)

/-- At most 8 ordinary entries in a queue (R17), 64 tickets (R114), 64 waiting numbers (R149) and 4 now-serving entries
(R152). -/
def State.capacitySound (s : State) : Prop :=
  (∀ a, ordinary (s.station a).queue ≤ 8) ∧ s.sc.tickets.length ≤ 64 ∧ s.qc.waiting.length ≤ 64
    ∧ s.qc.serving.length ≤ 4

/-- The tickets stand by strictly rising number, so that no two have one number, and every number is 1 to 999 (R114,
R117). -/
def State.numbersSound (s : State) : Prop :=
  s.sc.tickets.Pairwise (fun x y => x.number < y.number) ∧ ∀ t ∈ s.sc.tickets, 1 ≤ t.number ∧ t.number ≤ 999

/-- A bank's row tables in canonical form. -/
def Bank.tablesSound (b : Bank) : Prop :=
  Tbl.wf ArticleRow.clear b.articles ∧ Tbl.wf ClerkRow.clear b.clerks ∧ Tbl.wf ScaleRow.clear b.scales

/-- Every table of records but the row tables of the banks (Bank.tablesSound) in canonical form, so that equal records
are equal data. -/
def State.tablesSound (s : State) : Prop :=
  Tbl.wf Station.powerOn s.lc.stations ∧ Tbl.wf Channel.powerOn s.we.channels ∧ Tbl.wf Article.powerOn s.art.articles
    ∧ Tbl.wf [] s.cd.maps ∧ Tbl.wf Clerk.powerOn s.sc.clerks ∧ Tbl.wf PrintRecord.powerOn s.sc.prints

/-- The equalities of R173 in a bank. -/
def Bank.agrees (b : Bank) : Prop :=
  b.grand.items = Tbl.total ArticleRow.items b.articles ∧ b.grand.items = Tbl.total ClerkRow.items b.clerks
    ∧ b.grand.items = Tbl.total ScaleRow.items b.scales
    ∧ b.grand.value = Tbl.total ArticleRow.value b.articles ∧ b.grand.value = Tbl.total ClerkRow.value b.clerks
    ∧ b.grand.value = Tbl.total ScaleRow.value b.scales
    ∧ b.grand.voidItems = Tbl.total ArticleRow.voidItems b.articles
    ∧ b.grand.voidItems = Tbl.total ClerkRow.voidItems b.clerks
    ∧ b.grand.voidValue = Tbl.total ArticleRow.voidValue b.articles
    ∧ b.grand.voidValue = Tbl.total ClerkRow.voidValue b.clerks
    ∧ b.grand.tickets = Tbl.total ClerkRow.tickets b.clerks
    ∧ b.grand.abandoned = Tbl.total ClerkRow.abandoned b.clerks
    ∧ b.grand.abandonedValue = Tbl.total ClerkRow.abandonedValue b.clerks
    ∧ b.grand.labels = Tbl.total ScaleRow.labels b.scales

/-- R173: a bank whose SATURATED mark is clear agrees; its row tables are canonical. -/
def Bank.sound (b : Bank) : Prop := b.tablesSound ∧ (b.saturated = false → b.agrees)

/-- R173 and R174: both banks are sound, and a bank that is neither live nor frozen is clear. -/
def TotalsUnit.sound (u : TotalsUnit) : Prop :=
  u.a.sound ∧ u.b.sound ∧ (u.frozen = false → u.bank (otherBank u.live) = Bank.clear)

/-! ## Leaving service -/

/-- A ticket when scale a leaves service (R147). -/
def ticketDeparted (a : Nat) (k : Ticket) : Ticket :=
  match k.state with
  | .printing job => if job.scale = a then { k with state := .printWait } else k
  | .opened _ => k
  | .held => k
  | .parked _ => k
  | .printWait => k

/-- What the departure of scale a from service leaves of the blocks that hold state for it (R10, R47, R105, R133, R147):
the clerk logged out, the channel emptied, the copy map emptied, the pin dropped, its PRINTING tickets in PRINT_WAIT, each
with its PRINT_FAILED where the FIFO has room. -/
structure State.LeftService (s t : State) (a : Nat) : Prop where
  clerk : ∀ c, s.clerkAt a = some c → t.clerk c = { s.clerk c with scale := none }
  clerks : ∀ c, s.clerkAt a ≠ some c → t.clerk c = s.clerk c
  channel : t.channel a = { Channel.powerOn with config := (s.channel a).config }
  channels : ∀ b, b ≠ a → t.channel b = s.channel b
  copies : t.copyMap a = [] ∧ ∀ b, b ≠ a → t.copyMap b = s.copyMap b
  holders : ∀ e ∈ s.copyMap a, a ∉ (t.article e.article).holders
  pins : ∀ p, (s.channel a).ctx.pin = some p → a ∉ (t.article p.number).pins
  tickets : s.numbersSound → t.sc.tickets = s.sc.tickets.map (ticketDeparted a)
  prints : t.printRecord a = { s.printRecord a with lastProof := none }
  failed : t.op.overflow = false → ∀ k ∈ s.sc.tickets, ∀ job, k.state = .printing job → job.scale = a →
    { kind := .printFailed, time := s.op.clock, subjects := [k.number, k.clerk, a, job.tag, 3] } ∈ t.op.fifo

/-! ## Purges offered -/

/-- What the opening of a change for article n leaves of its holders' queues and copy maps (R20, R90, R99): a PURGE offered
to every holder in service with a VALID entry, placed by the four cases of R20; no other station or map changes. -/
def State.PurgesOffered (s t : State) (n : Nat) : Prop :=
  (∀ a, a ∉ (s.article n).holders → t.station a = s.station a ∧ t.copyMap a = s.copyMap a)
  ∧ ∀ a ∈ (s.article n).holders, ∀ e, s.inService a = true → copyOf (s.copyMap a) n = some e →
    let st := s.station a
    let fill := st.queue.any (unsent (isFillOf n))
    let marked (m : List CopyEntry) := m.map (fun x => if x.article = n then { x with purging := true } else x)
    (e.purging = true → t.station a = st ∧ t.copyMap a = s.copyMap a)
    ∧ (e.purging = false → fill = true →
        t.copyMap a = withoutCopy (s.copyMap a) n ∧ a ∉ (t.article n).holders
        ∧ (st.backlog = .articles [] → st.showOwed = false →
            t.station a = { st with queue := withdrawUnsent (isFillOf n) st.queue }))
    ∧ (e.purging = false → fill = false → ordinary st.queue < 8 →
        t.station a = { st with queue := st.queue ++ [{ msg := .purge n, sent := false }] }
        ∧ t.copyMap a = marked (s.copyMap a))
    ∧ (∀ k, e.purging = false → fill = false → 8 ≤ ordinary st.queue → oldestFill st.queue = some k →
        t.station a = { st with queue := withdrawUnsent isFill st.queue ++ [{ msg := .purge n, sent := false }] }
        ∧ t.copyMap a = marked (withoutCopy (s.copyMap a) k) ∧ a ∉ (t.article k).holders)
    ∧ ∀ l, e.purging = false → fill = false → 8 ≤ ordinary st.queue → oldestFill st.queue = none →
        st.backlog = .articles l →
        t.station a = { st with backlog := .articles (l ++ [n]) } ∧ t.copyMap a = marked (s.copyMap a)

/-! ## Notices, CALLOUTs, pins that end and the rush level -/

/-- The notices and what follows from them are the same in two Office Ports (R187, R188). -/
def OfficePort.sameNotices (p q : OfficePort) : Prop := p.fifo = q.fifo ∧ p.overflow = q.overflow ∧ p.irq = q.irq

/-- The display's record after one CALLOUT, built from the queue record of t, was offered to it (R18, R153): in place of
an unsent CALLOUT, or at the tail; out of service it is discarded (R2), and so it is where the queue is full, in states no
run reaches (log entry 12). -/
def State.CalloutOffered (s t : State) : Prop :=
  let st := s.station 18
  let callout : Entry := { msg := .callout t.qc.level t.qc.waiting.length t.qc.serving, sent := false }
  let unsentCallout (e : Entry) : Prop := e.sent = false ∧ isCallout e.msg = true
  (s.inService 18 = false → t.station 18 = st)
  ∧ (s.inService 18 = true →
      (∀ l e r, st.queue = l ++ e :: r → unsentCallout e → (∀ x ∈ l, ¬ unsentCallout x) →
        t.station 18 = { st with queue := l ++ callout :: r })
      ∧ ((∀ x ∈ st.queue, ¬ unsentCallout x) →
          (ordinary st.queue < 8 → t.station 18 = { st with queue := st.queue ++ [callout] })
          ∧ (8 ≤ ordinary st.queue → t.station 18 = st)))

/-- An article that one scale no longer pins (R77, R93). -/
def Article.withoutPin (r : Article) (a : Nat) : Article := { r with pins := r.pins.filter (fun b => b != a) }

/-- R78: a RETIRING article with nothing left is EMPTY. -/
def Article.swept (r : Article) : Article :=
  if r.state = .retiring ∧ r.holders = [] ∧ r.pins = [] ∧ r.refs = 0 then Article.powerOn else r

/-- What the end of scale a's pin of article n leaves of a change in flight, of the notices and of the article, whose
record the event itself has made `left` (R75, R78, R97, R100, R101): the change settles where no holder and no old pin of
another scale is left, and otherwise stays open. -/
structure State.PinEnded (s t : State) (port : OfficePort) (a n : Nat) (left : Article) : Prop where
  alone : s.changeOf n = none →
    t.changeOf n = none ∧ port.sameNotices s.op ∧ t.article n = left.swept
  settles : ∀ c, s.changeOf n = some c → left.holders = [] → (∀ b ∈ s.oldPins c, b = a) →
    t.changeOf n = none
    ∧ port.sameNotices
        (s.raise .changeSettled [n, changeKindCode c.kind, c.oldRevision, left.revision, 0, 0, 1]).op
    ∧ t.article n = Article.swept { left with state := if left.state = .changing then .live else left.state }
  stays : ∀ c, s.changeOf n = some c → left.holders ≠ [] ∨ (∃ b ∈ s.oldPins c, b ≠ a) →
    t.changeOf n = some c ∧ port.sameNotices s.op ∧ t.article n = left

/-- The rush condition of R157 holds at a moment with a waiting count. -/
def State.rushHolds (s : State) (now count : Nat) : Prop :=
  s.qc.residency ≤ now
    ∧ (s.qc.level = .normal ∧ s.op.settings.rushThreshold ≤ count ∨ s.qc.level = .rush ∧ count ≤ s.op.settings.calmThreshold)

/-- The idle timeout of the level that a change of the level enters (R126, R157). -/
def State.nextTimeout (s : State) : Nat :=
  1000 * (if s.qc.level = .normal then s.op.settings.idleRush else s.op.settings.idleNormal)

/-- An OPEN ticket whose recomputed idle deadline lies at or before a moment (R158 step 2). -/
def overdue (now timeout : Nat) (k : Ticket) : Prop := (∃ m, k.state = .opened m) ∧ moment k.lastActivity timeout ≤ now

/-- A ticket after the recomputation of R158 step 2, with the expiry deadline of one that parks. -/
def ticketRetimed (now timeout expiry : Nat) (k : Ticket) : Ticket :=
  match k.state with
  | .opened _ =>
      if moment k.lastActivity timeout ≤ now then { k with state := .parked expiry }
      else { k with state := .opened (moment k.lastActivity timeout) }
  | .held => k
  | .parked _ => k
  | .printing _ => k
  | .printWait => k

/-- A change of the rush level at a moment with a waiting count, over the tickets and the clerks that the event itself has
made (R120, R157, R158): the other level entered, every OPEN ticket recomputed, an overdue one parked and active no longer,
and the notice of the change. -/
structure State.LevelTurned (s t : State) (now count : Nat) (tickets : Nat → Option Ticket) (clerks : Nat → Clerk) : Prop
    where
  level : t.qc.level = (if s.qc.level = .normal then .rush else .normal) ∧ t.qc.entered = now
    ∧ t.qc.residency = moment now
        (1000 * (if s.qc.level = .normal then s.op.settings.residencyRush else s.op.settings.residencyNormal))
    ∧ t.qc.residencyPending = true
  retimed : ∀ n, t.ticketOf n =
    (tickets n).map (ticketRetimed now s.nextTimeout (moment now (1000 * s.op.settings.parkExpiry)))
  parked : ∀ c n k, (clerks c).active = some n → tickets n = some k → k.clerk = c → overdue now s.nextTimeout k →
    t.clerk c = { clerks c with active := none } ∧ ∀ a, (clerks c).scale = some a → (t.channel a).ctx.activeTicket = none
  others : ∀ c, (∀ n k, (clerks c).active = some n → tickets n = some k → k.clerk = c → ¬ overdue now s.nextTimeout k) →
    t.clerk c = clerks c
  notice : t.op.sameNotices
    (s.raise (if s.qc.level = .normal then .rushOn else .rushOff) [if s.qc.level = .normal then 2 else 1, count]).op

/-- An examination of the rush condition, after an event that made the waiting count, the tickets and the clerks (R157,
R158): where the condition holds the level changes, and otherwise nothing does. -/
structure State.Examined (s t : State) (count : Nat) (tickets : Nat → Option Ticket) (clerks : Nat → Clerk) : Prop where
  turned : s.rushHolds s.op.now count → s.LevelTurned t s.op.now count tickets clerks
  kept : ¬ s.rushHolds s.op.now count →
    (t.qc.level = s.qc.level ∧ t.qc.entered = s.qc.entered ∧ t.qc.residency = s.qc.residency
      ∧ t.qc.residencyPending = s.qc.residencyPending)
    ∧ (∀ n, t.ticketOf n = tickets n) ∧ (∀ c, t.clerk c = clerks c) ∧ t.op.sameNotices s.op

/-! ## Additions to the live bank -/

/-- The additions of one posting or accounting, row by row; none where a row takes no addition. -/
structure Gains where
  articles : Nat → Option ArticleRow
  clerks : Nat → Option ClerkRow
  scales : Nat → Option ScaleRow
  grand : GrandRow

/-- The net grams of the BY_WEIGHT items of a list (R173). -/
def netGrams (l : List Item) : Nat := ((l.filter (fun i => i.mode == .byWeight)).map (fun i => i.net.getD 0)).sum

/-- The prices of the items of a list. -/
def prices (l : List Item) : Nat := (l.map (·.price)).sum

/-- The table of R175 for a ticket printed at a scale. -/
def postingGains (k : Ticket) (scale : Nat) : Gains :=
  let sold := k.items.filter (fun i => !i.voided)
  let voided := k.items.filter (·.voided)
  { articles := fun n =>
      if k.items.any (fun i => i.article == n) then
        let x := sold.filter (fun i => i.article == n)
        let y := voided.filter (fun i => i.article == n)
        some { items := x.length, voidItems := y.length, weight := netGrams x, value := prices x, voidValue := prices y }
      else none
    clerks := fun c =>
      if c = k.clerk then
        some { ClerkRow.clear with
          tickets := 1, items := sold.length, voidItems := voided.length, value := prices sold, voidValue := prices voided }
      else none
    scales := fun a =>
      let x := sold.filter (fun i => i.scale == a)
      if a = scale ∨ x ≠ [] then
        some { items := x.length, labels := if a = scale then 1 else 0, weight := netGrams x, value := prices x }
      else none
    grand := { GrandRow.clear with
      tickets := 1, items := sold.length, voidItems := voided.length, labels := 1, value := prices sold,
      voidValue := prices voided } }

/-- The table of R176 for an abandoned ticket. -/
def abandonedGains (k : Ticket) : Gains :=
  { articles := fun _ => none
    clerks := fun c =>
      if c = k.clerk then some { ClerkRow.clear with abandoned := 1, abandonedValue := k.total } else none
    scales := fun _ => none
    grand := { GrandRow.clear with abandoned := 1, abandonedValue := k.total } }

/-- A row of a kind and an index whose addition is held at a maximum (R177): 1 article, 2 clerk, 3 scale, 4 grand. -/
def Gains.heldAt (g : Gains) (b : Bank) (kind index : Nat) : Prop :=
  (kind = 1 ∧ ∃ d, g.articles index = some d ∧ (Tbl.read ArticleRow.clear b.articles index).held d = true)
    ∨ (kind = 2 ∧ ∃ d, g.clerks index = some d ∧ (Tbl.read ClerkRow.clear b.clerks index).held d = true)
    ∨ (kind = 3 ∧ ∃ d, g.scales index = some d ∧ (Tbl.read ScaleRow.clear b.scales index).held d = true)
    ∨ (kind = 4 ∧ index = 0 ∧ b.grand.held g.grand = true)

/-- The additions made to the live bank alone, each field held at its maximum, the SATURATED mark with its notice
(R175 to R177). The cause is 1 POSTING or 2 ABANDONED. -/
structure State.Accounted (s t : State) (cause ticket : Nat) (g : Gains) : Prop where
  frame : Changes [.tu, .op] s t
  roles : t.tu.live = s.tu.live ∧ t.tu.frozen = s.tu.frozen
  other : t.tu.bank (otherBank s.tu.live) = s.tu.bank (otherBank s.tu.live)
  period : t.liveBank.period = s.liveBank.period
  articles : ∀ n, Tbl.read ArticleRow.clear t.liveBank.articles n =
    match g.articles n with
    | some d => (Tbl.read ArticleRow.clear s.liveBank.articles n).plus d
    | none => Tbl.read ArticleRow.clear s.liveBank.articles n
  clerks : ∀ n, Tbl.read ClerkRow.clear t.liveBank.clerks n =
    match g.clerks n with
    | some d => (Tbl.read ClerkRow.clear s.liveBank.clerks n).plus d
    | none => Tbl.read ClerkRow.clear s.liveBank.clerks n
  scales : ∀ n, Tbl.read ScaleRow.clear t.liveBank.scales n =
    match g.scales n with
    | some d => (Tbl.read ScaleRow.clear s.liveBank.scales n).plus d
    | none => Tbl.read ScaleRow.clear s.liveBank.scales n
  grand : t.liveBank.grand = s.liveBank.grand.plus g.grand
  mark : t.liveBank.saturated = true ↔ s.liveBank.saturated = true ∨ ∃ kind index, g.heldAt s.liveBank kind index
  notice : s.liveBank.saturated = false → ∀ kind index, g.heldAt s.liveBank kind index →
    (∀ x y, g.heldAt s.liveBank x y → kind < x ∨ kind = x ∧ index ≤ y) →
    t.op = (s.raise .totalsSaturated [bankCode s.tu.live, s.liveBank.period, cause, ticket, kind, index]).op
  quiet : s.liveBank.saturated = true ∨ (∀ kind index, ¬ g.heldAt s.liveBank kind index) → t.op = s.op

end Sys2Proof.Machine
end

