-- ==== Sys2Proof/Certificates/Slice0/Obligations.lean ====
section
/-! DEFINITION. The statements for the provers. -/

open Sys2Proof Sys2Proof.Machine

/-! ## The queue and every command -/

/-- A step takes the command at the front of the queue and executes it over the queue's rest. -/
def Obligations.StepRunsFront : Prop :=
  ∀ (c : Instr) (s : State), step { s with pending := c :: s.pending } = exec c s

/-- The model's choice (log entry 2): with no command waiting, a step lets one millisecond of time base pass. -/
def Obligations.EmptyQueueStep : Prop :=
  ∀ s : State, s.pending = [] → s.op.now + 1 < 2 ^ 48 →
    step s = .next { s with op := { s.op with now := s.op.now + 1 } }

/-- Every command, with any operands in any state, is answered by a next state with the same commands waiting. -/
def Obligations.EveryCommandCompletes : Prop :=
  ∀ (i : Instr) (s : State), ∃ t, exec i s = .next t ∧ t.pending = s.pending

/-- A command changes no block outside its list in touches. The two rows of frames that are not executed name every
block: a term of theirs whose frame spells a command is that command's transaction (log entry 6). -/
def Obligations.EveryCommandFrame : Prop :=
  ∀ (i : Instr) (s t : State), exec i s = .next t → Changes (touches i) s t

/-! ## Invariants -/

/-- The part after power-on satisfies every invariant below. -/
def Obligations.ResetIsSound : Prop :=
  State.reset.op.sound ∧ State.reset.op.settings.sound ∧ State.reset.tu.sound ∧ State.reset.capacitySound
    ∧ State.reset.tablesSound ∧ State.reset.numbersSound

/-- READY follows the stored response, IRQ stands as R188 says, and the FIFO holds at most 32 notices, at every step. -/
def Obligations.PortInvariant : Prop :=
  ∀ s t : State, s.op.sound → step s = .next t → t.op.sound

/-- R188, from any state in which the lines stand as the rules say. -/
def Obligations.IrqLine : Prop :=
  ∀ s t : State, s.op.sound → step s = .next t →
    (t.op.irq = true ↔ t.op.settings.trigger ≤ t.op.fifo.length ∨ t.op.overflow = true)

/-- Every counter setting stays in its range, at every step. -/
def Obligations.SettingsInvariant : Prop :=
  ∀ s t : State, s.op.settings.sound → step s = .next t → t.op.settings.sound

/-- No outbound queue ever holds more than 8 ordinary entries (R17), the ticket table more than 64 tickets (R114), the
waiting queue more than 64 numbers (R149) and the now-serving list more than 4 entries (R152), at every step. The other
limits (a copy map's 32 entries, a ticket's 24 items, one unsent SETMODE) are no part of this. -/
def Obligations.CapacityInvariant : Prop :=
  ∀ s t : State, s.capacitySound → step s = .next t → t.capacitySound

/-- Ticket numbers stay distinct, rising in the table and within 1 to 999, at every step. -/
def Obligations.TicketNumberInvariant : Prop :=
  ∀ s t : State, s.numbersSound → step s = .next t → t.numbersSound

/-- The row sums of an unmarked bank equal its grand row, and the bank that is neither live nor frozen is clear, at
every step. -/
def Obligations.TotalsInvariant : Prop :=
  ∀ s t : State, s.tu.sound → step s = .next t → t.tu.sound

/-- Every table of records but the row tables of the two banks, whose form TotalsInvariant keeps, has its canonical form,
so that equal records are equal data, at every step (log entry 7). -/
def Obligations.TableInvariant : Prop :=
  ∀ s t : State, s.tablesSound → step s = .next t → t.tablesSound

/-! ## Characters -/

/-- A number sent in enough characters reads back as itself; so does a signed number in two's complement; every message
a station may send, framed as R5 and R22 lay it out, is read back as the same reply; and an ACTION whose code is not in
the table is read with any characters after its code (R22). -/
def Obligations.CharactersReadBack : Prop :=
  (∀ n v : Nat, v < 256 ^ n → number (chars n v) = v)
  ∧ (∀ (n : Nat) (v : Int), 0 < n → -(256 ^ n : Nat) ≤ 2 * v → 2 * v < (256 ^ n : Nat) →
      signedNumber (signedChars n v) = v)
  ∧ (∀ (a : Nat) (r : Reply), 1 ≤ a → a ≤ 18 → sendable (kindOf a) r.msg = true → parseReply a (replyChars a r) = some r)
  ∧ ∀ (a c : Nat) (u d h : Bool) (more : List Byte), isScale a = true → c < 256 → c = 0 ∨ 21 < c → more.length ≤ 119 →
      parseReply a (frame a 18 (flagsChar u d h) (chars 1 c ++ more)) =
        some { uSeq := u, dAck := d, hold := h, msg := .action (.unknown c) }

/-- A row of a host command is the SPI transaction of its code, its length and its body. -/
def Obligations.HostRowIsTransaction : Prop :=
  ∀ (i : Instr) (code : Nat) (body : List Byte) (s : State), i.wf = true → i.hostFrame = some (code, body) →
    exec i s = .next (s.transaction (BitVec.ofNat 8 code) (chars 2 body.length ++ body))

/-! ## Power and RESET -/

/-- Power-on sets every value that R190 and the chapters of the other blocks give (R1, R3, R25, R84, R106, R108, R117,
R134, R149, R164, R174, R185). The model's own: the commands still waiting stay (log entry 14), the count of free values
goes on (log entry 10), and the residency deadline of the NORMAL level still has to expire (log entry 13). -/
def Obligations.PowerOnSets : Prop :=
  ∀ s : State, ∃ t, exec .powerOn s = .next t ∧ t.pending = s.pending ∧ t.freeCount = s.freeCount
    ∧ t.op.settings =
        { replyWindow := 4, settleTimeout := 10, increment := 1, idleNormal := 120, idleRush := 45, parkExpiry := 600,
          printTimeout := 15, rushThreshold := 8, calmThreshold := 4, residencyNormal := 60, residencyRush := 120,
          priceLock := 2049, trigger := 1 }
    ∧ t.op.clock = 0 ∧ t.op.now = 0 ∧ t.op.fifo = [] ∧ t.op.overflow = false ∧ t.op.response = none
    ∧ t.op.ready = false ∧ t.op.irq = false ∧ t.op.startCause = .powerOn
    ∧ (∀ a, t.station a = Station.powerOn) ∧ t.lc.visitPtr = 1 ∧ t.lc.probePtr = 1 ∧ t.lc.slotCount = 1
    ∧ t.lc.visit = none ∧ (∀ a, t.channel a = Channel.powerOn) ∧ (∀ n, t.article n = Article.powerOn)
    ∧ (∀ a, t.copyMap a = []) ∧ t.cd.changes = [] ∧ (∀ c, t.clerk c = Clerk.powerOn) ∧ t.sc.tickets = []
    ∧ t.sc.lastTicket = 0 ∧ (∀ a, t.printRecord a = PrintRecord.powerOn)
    ∧ t.qc = { waiting := [], nextNumber := 1, serving := [], level := .normal, entered := 0, residency := 60000,
               residencyPending := true }
    ∧ t.wu = { a := WatchChannel.powerOn, b := WatchChannel.powerOn }
    ∧ t.tu = { a := { Bank.clear with period := 1 }, b := Bank.clear, live := .a, frozen := false }

/-- RESET falls: an open visit ends at once, and the Office Port only marks RESET low. While it is low, SPI transactions
and new messages change nothing, and no deadline is taken (R191). The model's choices: no station's record changes at the
fall, so that the visit it ends counts no miss (log entry 10); the row of a deadline then only lets time pass (log entry
1), a message that is not taken changes nothing (log entry 4), an ignored transaction leaves spiOut as it was (log entry
5), and a transaction that straddles an edge of RESET is judged by its level when the row is taken (log entry 21). -/
def Obligations.ResetHolds : Prop :=
  (∀ s : State, s.op.resetLow = false → ∃ t, exec .resetFall s = .next t
    ∧ t.op = { s.op with resetLow := true } ∧ t.lc.visit = none ∧ t.lc.stations = s.lc.stations
    ∧ Changes [.lc, .op] s t)
  ∧ ∀ s : State, s.op.resetLow = true →
    (∀ i, hostRow i = true → exec i s = .next s)
    ∧ (∀ a f room, s.deliver a (kindOf a) room f = s)
    ∧ ∀ d, s.later (s.deadlineRow d)

/-- RESET rises: after at least 10 µs low, a warm restart, and an unread response is discarded; after a shorter pulse no
restart: the deadlines that fell are taken and then, no visit being open, the next visit slot begins, in this order and
with the visit ended at RESET's fall counted as the model's choice (log entry 10); with no deadline reached nothing but
the line goes on (R191). -/
def Obligations.ResetRises : Prop :=
  ∀ (s : State) (n : Nat), s.op.resetLow = true →
    (10 ≤ n → s.tablesSound → ∃ t, exec (.resetRise n) s = .next t ∧ s.Restarted t .pin 2 ∧ t.op.resetLow = false
      ∧ t.op.response = none ∧ t.op.ready = false)
    ∧ (n < 10 → exec (.resetRise n) s = .next
        (State.nextSlot (State.takeDue { s with op := { s.op with resetLow := false } })))
    ∧ (n < 10 → (∀ d, s.due d = false) → ∃ t, exec (.resetRise n) s = .next t
      ∧ t.op = { s.op with resetLow := false } ∧ Changes [.lc, .op, .free] s t)

/-- CTR.RESTART with an empty body: a warm restart whose response, OK with an empty body, is stored after it; any other
body is BAD_ARG and causes no restart (R191). -/
def Obligations.CommandRestarts : Prop :=
  ∀ (s : State), s.op.resetLow = false →
    (s.tablesSound → ∃ t, exec (.ctrRestart []) s = .next t ∧ s.Restarted t .command 1 ∧ t.op.ready = true
      ∧ t.op.response = some { code := 131, result := .ok, clamped := false, body := [] })
    ∧ ∀ body, body ≠ [] → body.length ≤ 255 →
        exec (.ctrRestart body) s = .next (s.responded 131 .badArg false [] (3 + body.length))

/-! ## Transactions -/

/-- A response read sends the stored response and then characters of 0, and releases it once all of it has been sent;
with none stored it sends characters of 0 (R183). -/
def Obligations.ResponseRead : Prop :=
  ∀ (s : State) (n : Nat), s.op.resetLow = false →
    (s.op.response = none → exec (.responseRead n) s = .next { s with op := { s.op with spiOut := List.replicate n 0#8 } })
    ∧ ∀ r, s.op.response = some r →
        (r.chars.length ≤ n → exec (.responseRead n) s = .next { s with op :=
          { s.op with response := none, ready := false, spiOut := r.chars ++ List.replicate (n - r.chars.length) 0#8 } })
        ∧ (n < r.chars.length →
            exec (.responseRead n) s = .next { s with op := { s.op with spiOut := r.chars.take n } })

/-- Frames that are not executed: BAD_ARG for a frame of another length than the one stated or stating more than 255,
UNKNOWN for a code that is not in the table; nothing for a transaction too soon or without characters (R183, R184). -/
def Obligations.FramesNotExecuted : Prop :=
  ∀ s : State, s.op.resetLow = false →
    (∀ code rest, code ≠ 0#8 → frameSound rest = false →
      exec (.badFrame code rest) s = .next (s.responded code .badArg false [] (1 + rest.length)))
    ∧ (∀ code body, (Instr.unknownCommand code body).wf = true →
      exec (.unknownCommand code body) s = .next (s.responded code .unknown false [] (3 + body.length)))
    ∧ (∀ l, exec (.shortTransaction l) s = .next { s with op := { s.op with spiOut := List.replicate l.length 0#8 } })
    ∧ exec .emptyTransaction s = .next { s with op := { s.op with spiOut := [] } }

/-- The reads answer OK with the fields their rules list and change nothing (R24, R79, R107, R111, R130, R131, R160,
R171, R179, R185, R189); a ticket that is not in the table and a bank that is not frozen are NOT_FOUND. Where the rules
do not lay a field out (an absent field in place, a list with no second count, an open range in 4 characters, the order
of the parts of STN.READ, the state of IRQ as a mark) the layout is the model's reading (log entry 9); that a row of
TOT.READ has its count fields first is the model's choice (log entry 22). -/
def Obligations.HostReads : Prop :=
  ∀ s : State, s.op.resetLow = false →
    (∀ n, 1 ≤ n → n ≤ 2048 → exec (.artRead (chars 2 n)) s = .next (s.responded 19 .ok false (s.articleChars n) 5))
    ∧ (∀ a, 1 ≤ a → a ≤ 18 → exec (.stnRead (chars 1 a)) s = .next (s.responded 34 .ok false (s.stationReadChars a) 4))
    ∧ (∀ c, 1 ≤ c → c ≤ 24 → exec (.clkRead (chars 1 c)) s = .next (s.responded 50 .ok false (s.clerkChars c) 4))
    ∧ (∀ n t, 1 ≤ n → n ≤ 999 → s.ticketOf n = some t →
        exec (.tktRead (chars 2 n)) s = .next (s.responded 64 .ok false (ticketChars s.op.now t) 5))
    ∧ (∀ n, 1 ≤ n → n ≤ 999 → s.ticketOf n = none →
        exec (.tktRead (chars 2 n)) s = .next (s.responded 64 .notFound false [] 5))
    ∧ exec .ticketDirectory s = .next (s.responded 64 .ok false s.directoryChars 5)
    ∧ exec (.queRead []) s = .next (s.responded 80 .ok false s.queueChars 3)
    ∧ exec (.wchRead (chars 1 1)) s = .next (s.responded 97 .ok false
        (watchChars s.wu.a ++ chars 2 s.wu.a.count ++ [255#8] ++ chars 1 s.aSeenCount) 4)
    ∧ exec (.wchRead (chars 1 2)) s = .next (s.responded 97 .ok false
        (watchChars s.wu.b ++ chars 2 s.wu.b.count ++ markChar (s.wu.b.enable && s.wu.b.sequential)
          ++ chars 1 s.aSeenCount) 4)
    ∧ (∀ kind index row, kind < 256 → index < 65536 → s.liveBank.rowChars kind index = some row →
        exec (.totRead (chars 1 1 ++ chars 1 kind ++ chars 2 index)) s = .next (s.responded 113 .ok false
          (chars 1 (bankCode s.tu.live) ++ chars 1 1 ++ chars 2 s.liveBank.period ++ markChar s.liveBank.saturated
            ++ chars 1 kind ++ chars 2 index ++ row) 7))
    ∧ (∀ kind index row, kind < 256 → index < 65536 →
        (s.tu.bank (otherBank s.tu.live)).rowChars kind index = some row →
        let b := s.tu.bank (otherBank s.tu.live)
        let body := chars 1 2 ++ chars 1 kind ++ chars 2 index
        (s.tu.frozen = false → exec (.totRead body) s = .next (s.responded 113 .notFound false [] 7))
        ∧ (s.tu.frozen = true → exec (.totRead body) s = .next (s.responded 113 .ok false
            (chars 1 (bankCode (otherBank s.tu.live)) ++ chars 1 2 ++ chars 2 b.period ++ markChar b.saturated
              ++ chars 1 kind ++ chars 2 index ++ row) 7)))
    ∧ exec (.ctrRead []) s = .next (s.responded 129 .ok false (settingsChars s.op.settings ++ chars 4 s.op.clock) 3)
    ∧ exec (.ctrStatus []) s = .next (s.responded 132 .ok false s.statusChars 3)

/-- CTR.SET stores every field within its range, the rounding increment as it stands, and marks a clamped answer where a
field was altered; every channel is evaluated where the increment changed (R62), and IRQ follows the new trigger level
(R188). A body of another length and another increment are BAD_ARG (R185). That a channel whose verdict holds no price is
evaluated as any other is the model's choice (log entry 20). -/
def Obligations.CtrSetStores : Prop :=
  ∀ (s : State) (body : List Byte), s.op.resetLow = false → body.length ≤ 255 →
    ((body.length ≠ 19 ∨ ¬ (field body 3 1 = 1 ∨ field body 3 1 = 5 ∨ field body 3 1 = 10)) →
      exec (.ctrSet body) s = .next (s.responded 128 .badArg false [] (3 + body.length)))
    ∧ (body.length = 19 → (field body 3 1 = 1 ∨ field body 3 1 = 5 ∨ field body 3 1 = 10) →
        ∃ t, exec (.ctrSet body) s = .next t
          ∧ t.op.settings =
              { replyWindow := max 1 (min 20 (field body 1 1)), settleTimeout := max 1 (min 60 (field body 2 1)),
                increment := field body 3 1, idleNormal := max 30 (min 600 (field body 4 2)),
                idleRush := max 15 (min 300 (field body 6 2)), parkExpiry := max 60 (min 3600 (field body 8 2)),
                printTimeout := max 5 (min 60 (field body 10 1)), rushThreshold := max 1 (min 64 (field body 11 1)),
                calmThreshold := min (max 1 (min 64 (field body 11 1)) - 1) (field body 12 1),
                residencyNormal := min 600 (field body 13 2), residencyRush := min 600 (field body 15 2),
                priceLock := max 1 (min 2049 (field body 17 2)), trigger := max 1 (min 16 (field body 19 1)) }
          ∧ t.op.response = some
              { code := 128, result := .ok, clamped := decide (t.op.settings ≠ settingsOf body), body := [] }
          ∧ t.op.ready = true ∧ t.op.irq = irqLevel t.op ∧ t.op.fifo = s.op.fifo ∧ t.op.now = s.op.now
          ∧ t.op.clock = s.op.clock
          ∧ (field body 3 1 = s.op.settings.increment → t.we = s.we ∧ t.lc = s.lc)
          ∧ (field body 3 1 ≠ s.op.settings.increment → ∀ a, 1 ≤ a → a ≤ 16 →
              t.channel a = judged (s.channel a)
                (formVerdict (s.channel a) (field body 3 1) (decide ((s.station a).state = .proof))))
          ∧ Changes [.we, .lc, .op] s t)

/-- CTR.TIME stores the value, starts the next 1,000 ms and moves no deadline and no other field; a clock tick raises
the clock by 1, from its maximum to 0, when 1,000 ms have passed (R186). That the row of the tick brings the time base
to that moment is the model's choice (log entry 1). -/
def Obligations.ClockMoves : Prop :=
  (∀ (s : State) (v : Nat), s.op.resetLow = false → v < 4294967296 →
    exec (.ctrTime (chars 4 v)) s = .next
      (State.responded { s with op := { s.op with clock := v, clockBase := s.op.now } } 130 .ok false [] 7))
  ∧ ∀ s : State, s.op.clockBase + 1000 < 2 ^ 48 →
      exec .clockTick s = .next { s with op :=
        { s.op with clock := (s.op.clock + 1) % 4294967296, clockBase := s.op.clockBase + 1000,
                    now := max s.op.now (s.op.clockBase + 1000) } }

/-- A notice is placed at the tail below 32, is discarded with the overflow mark set at 32, and is discarded while the
mark is set. NTC.READ removes up to 8 notices, oldest first, and answers their count, the overflow mark, the count left
and the notices; NTC.ACK clears the overflow mark. Each evaluates IRQ again (R187, R188). That no second count stands
before the notices in the body of NTC.READ is the model's reading (log entry 9). -/
def Obligations.NoticesKept : Prop :=
  (∀ (s : State) (k : NoticeKind) (l : List Nat),
    (s.op.overflow = false → s.op.fifo.length < 32 → (s.raise k l).op.overflow = false
      ∧ (s.raise k l).op.fifo = s.op.fifo ++ [{ kind := k, time := s.op.clock, subjects := l }])
    ∧ (s.op.overflow = false → s.op.fifo.length = 32 → (s.raise k l).op.overflow = true
      ∧ (s.raise k l).op.fifo = s.op.fifo)
    ∧ (s.op.overflow = true → (s.raise k l).op.overflow = true ∧ (s.raise k l).op.fifo = s.op.fifo)
    ∧ (s.raise k l).op.irq = irqLevel (s.raise k l).op)
  ∧ ∀ s : State, s.op.resetLow = false →
    (∃ t, exec (.ntcRead []) s = .next t ∧ t.op.fifo = s.op.fifo.drop 8 ∧ t.op.overflow = s.op.overflow
      ∧ t.op.irq = irqLevel t.op ∧ Changes [.op] s t
      ∧ t.op.response = some
        { code := 144, result := .ok, clamped := false,
          body := chars 1 (min 8 s.op.fifo.length) ++ markChar s.op.overflow ++ chars 1 (s.op.fifo.length - 8)
            ++ (s.op.fifo.take 8).flatMap noticeChars })
    ∧ ∃ t, exec (.ntcAck []) s = .next t ∧ t.op.fifo = s.op.fifo ∧ t.op.overflow = false
      ∧ t.op.irq = irqLevel t.op ∧ Changes [.op] s t
      ∧ t.op.response = some { code := 145, result := .ok, clamped := false, body := [] }

/-! ## Host commands that change a record -/

/-- A host command whose result is not OK has an empty body and changes nothing but the stored response. A command body
of another length than its arguments take (R183, R184 and the rules that fixedLength names), an article number outside 1
to 2048 (R69, R74, R79), a station outside 1 to 18 (R11, R24), a clerk outside 1 to 24 (R109 to R111) and a ticket number
outside 1 to 999 (R128, R129; 0 is allowed to TKT.READ, R130) are BAD_ARG. -/
def Obligations.WrongRequestsRefused : Prop :=
  ∀ (s : State) (body : List Byte),
    (∀ code, (s.hostCommand code body).2.result ≠ .ok →
      (s.hostCommand code body).1 = s ∧ (s.hostCommand code body).2.body = []
        ∧ (s.hostCommand code body).2.clamped = false)
    ∧ (∀ code n, fixedLength code = some n → body.length ≠ n → s.hostCommand code body = (s, .refuse .badArg))
    ∧ (¬ contentLaidOut body → s.hostCommand 16 body = (s, .refuse .badArg) ∧ s.hostCommand 17 body = (s, .refuse .badArg))
    ∧ (field body 1 2 < 1 ∨ 2048 < field body 1 2 →
        s.hostCommand 18 body = (s, .refuse .badArg) ∧ s.hostCommand 19 body = (s, .refuse .badArg))
    ∧ (field body 1 1 < 1 ∨ 18 < field body 1 1 →
        s.hostCommand 33 body = (s, .refuse .badArg) ∧ s.hostCommand 34 body = (s, .refuse .badArg))
    ∧ (field body 1 1 < 1 ∨ 24 < field body 1 1 → s.hostCommand 48 body = (s, .refuse .badArg)
        ∧ s.hostCommand 49 body = (s, .refuse .badArg) ∧ s.hostCommand 50 body = (s, .refuse .badArg))
    ∧ (999 < field body 1 2 → s.hostCommand 64 body = (s, .refuse .badArg))
    ∧ (field body 1 2 < 1 ∨ 999 < field body 1 2 →
        s.hostCommand 65 body = (s, .refuse .badArg) ∧ s.hostCommand 66 body = (s, .refuse .badArg))

/-- ART.CREATE, its checks in order, and the record it stores in an EMPTY slot: nothing else changes (R69, R70). -/
def Obligations.ArtCreateStores : Prop :=
  ∀ (s : State) (body : List Byte), s.op.resetLow = false → body.length ≤ 255 → contentLaidOut body →
    let n := field body 1 2
    let row := Tbl.read ArticleRow.clear s.liveBank.articles n
    ((s.article n).state ≠ .empty →
      exec (.artCreate body) s = .next (s.responded 16 .inUse false [] (3 + body.length)))
    ∧ ((s.article n).state = .empty → row ≠ ArticleRow.clear →
      exec (.artCreate body) s = .next (s.responded 16 .totalsPending false [] (3 + body.length)))
    ∧ ((s.article n).state = .empty → row = ArticleRow.clear → ¬ contentInRange body →
      exec (.artCreate body) s = .next (s.responded 16 .badArg false [] (3 + body.length)))
    ∧ ((s.article n).state = .empty → row = ArticleRow.clear → contentInRange body →
      ∃ c, c.isOf body ∧ exec (.artCreate body) s = .next (State.responded
        (s.setArticle n { s.article n with state := .live, content := some c, revision := 1 }) 16 .ok
        (decide (90 < field body 7 1)) [] (3 + body.length)))

/-- ART.CHANGE and ART.RETIRE, their checks in order, and the record they leave: PURGEs are offered to the holders (R20,
R90, R99), and a change in flight with the old revision and the settle deadline stands open exactly while a holder or an
old pin is left; otherwise it has settled with its CHANGE_SETTLED notice, and the article is LIVE or, when it was
retired, RETIRING or EMPTY (R71 to R75, R78, R98 to R101). -/
def Obligations.ArticleChangesOpen : Prop :=
  ∀ (s : State) (body : List Byte), s.op.resetLow = false → body.length ≤ 255 →
    let n := field body 1 2
    let r := s.article n
    let record (k : ChangeKind) : Change :=
      { article := n, kind := k, oldRevision := r.revision,
        deadline := moment s.op.now (1000 * s.op.settings.settleTimeout) }
    let notice (k revision : Nat) : Notice :=
      { kind := .changeSettled, time := s.op.clock, subjects := [n, k, r.revision, revision, 0, 0, 1] }
    (contentLaidOut body →
      (r.state = .empty → exec (.artChange body) s = .next (s.responded 17 .notFound false [] (3 + body.length)))
      ∧ (r.state = .changing → exec (.artChange body) s = .next (s.responded 17 .busy false [] (3 + body.length)))
      ∧ (r.state = .retiring → exec (.artChange body) s = .next (s.responded 17 .wrongState false [] (3 + body.length)))
      ∧ (r.state = .live → ¬ contentInRange body →
          exec (.artChange body) s = .next (s.responded 17 .badArg false [] (3 + body.length)))
      ∧ (r.state = .live → contentInRange body → s.changeOf n = none →
          ∃ t c, exec (.artChange body) s = .next t ∧ c.isOf body
            ∧ t.op.response = some
              { code := 17, result := .ok, clamped := decide (90 < field body 7 1), body := [] }
            ∧ (t.article n).content = some c ∧ (t.article n).revision = (r.revision + 1) % 256
            ∧ (t.article n).refs = r.refs ∧ (t.article n).pins = r.pins ∧ s.PurgesOffered t n
            ∧ (t.changeOf n = some (record .change) ∧ (t.article n).state = .changing
                ∧ ¬ ((t.article n).holders = [] ∧ t.oldPins (record .change) = [])
              ∨ t.changeOf n = none ∧ (t.article n).state = .live ∧ (t.article n).holders = []
                ∧ t.oldPins (record .change) = []
                ∧ (t.op.overflow = false → notice 1 ((r.revision + 1) % 256) ∈ t.op.fifo))))
    ∧ (body.length = 2 → 1 ≤ n → n ≤ 2048 →
      (r.state = .empty → exec (.artRetire body) s = .next (s.responded 18 .notFound false [] 5))
      ∧ (r.state = .changing → exec (.artRetire body) s = .next (s.responded 18 .busy false [] 5))
      ∧ (r.state = .retiring → exec (.artRetire body) s = .next (s.responded 18 .wrongState false [] 5))
      ∧ (r.state = .live → s.changeOf n = none →
          ∃ t, exec (.artRetire body) s = .next t
            ∧ t.op.response = some { code := 18, result := .ok, clamped := false, body := [] } ∧ s.PurgesOffered t n
            ∧ (t.changeOf n = some (record .retire) ∧ (t.article n).state = .retiring
                ∧ (t.article n).revision = r.revision ∧ (t.article n).content = r.content
                ∧ (t.article n).refs = r.refs ∧ (t.article n).pins = r.pins
                ∧ ¬ ((t.article n).holders = [] ∧ t.oldPins (record .retire) = [])
              ∨ t.changeOf n = none ∧ t.oldPins (record .retire) = []
                ∧ (t.op.overflow = false → notice 2 r.revision ∈ t.op.fifo)
                ∧ (r.refs = 0 → r.pins = [] → t.article n = Article.powerOn)
                ∧ (r.refs ≠ 0 ∨ r.pins ≠ [] →
                    t.article n = { r with state := .retiring, holders := [] }))))

/-- OVERRIDE, its checks in order, and its effect on a LIVE article: its price and revision change as ART.CHANGE changes
them, with the PURGEs to its holders; the notices of the opened change are followed by OVERRIDE, placed or discarded as
R187 says, and the REPLY carries the number and the new revision (R81, R82). -/
def Obligations.OverrideChangesPrice : Prop :=
  ∀ (s : State) (a n price : Nat), s.takes a →
    let r := s.article n
    let i := Instr.override a n price
    let record : Change :=
      { article := n, kind := .change, oldRevision := r.revision,
        deadline := moment s.op.now (1000 * s.op.settings.settleTimeout) }
    ((s.station a).state = .proof → s.turnsAway i a 21 .proofOnly)
    ∧ ((s.station a).state ≠ .proof → s.clerkAt a = none → s.turnsAway i a 21 .noClerk)
    ∧ ∀ c, s.mans a c →
      ((s.clerk c).supervisor = false → s.turnsAway i a 21 .notSupervisor)
      ∧ ((s.clerk c).supervisor = true → (n < 1 ∨ 2048 < n) → s.turnsAway i a 21 .noArticle)
      ∧ ((s.clerk c).supervisor = true → 1 ≤ n → n ≤ 2048 →
        (s.op.settings.priceLock ≤ n → s.turnsAway i a 21 .locked)
        ∧ (n < s.op.settings.priceLock →
          (r.state = .empty ∨ r.state = .retiring → s.turnsAway i a 21 .noArticle)
          ∧ (r.state = .changing → s.turnsAway i a 21 .busy)
          ∧ (r.state = .live → (price < 1 ∨ 99999 < price) → s.turnsAway i a 21 .badValue)
          ∧ ∀ x, r.state = .live → r.content = some x → s.changeOf n = none → 1 ≤ price → price ≤ 99999 →
            ∃ t u, exec i s = .next t ∧ u = (s.markTaken a).changeArticle n { x with price := price }
              ∧ t.answered a 21 .ok (chars 2 n ++ chars 1 ((r.revision + 1) % 256))
              ∧ (t.article n).content = some { x with price := price }
              ∧ (t.article n).revision = (r.revision + 1) % 256 ∧ (t.article n).refs = r.refs
              ∧ (t.article n).pins = r.pins ∧ (s.markTaken a).PurgesOffered u n
              ∧ (t.changeOf n = some record ∧ (t.article n).state = .changing
                  ∧ ¬ ((t.article n).holders = [] ∧ t.oldPins record = [])
                ∨ t.changeOf n = none ∧ (t.article n).state = .live ∧ (t.article n).holders = []
                  ∧ t.oldPins record = [])
              ∧ t.op = (State.raise u .override [n, (r.revision + 1) % 256, x.price, price, a, c]).op
              ∧ u.op.clock = s.op.clock ∧ ∃ l, u.op.fifo = s.op.fifo ++ l))

/-- STN.CONFIG and WCH.SET, their checks, and the configurations they store: nothing else changes (R26, R27, R164,
R165). -/
def Obligations.ConfigurationsStored : Prop :=
  ∀ (s : State) (body : List Byte), s.op.resetLow = false →
    (body.length = 15 →
      let a := field body 1 1
      let c : MetroConfig :=
        { max := field body 2 2, split := field body 4 2, e1 := field body 6 1,
          e2 := if field body 4 2 = 0 then 0 else field body 7 1, k := field body 8 1, band := field body 9 1,
          count := field body 10 1, spike := field body 11 2, tareLimit := field body 13 2,
          tracking := decide (field body 15 1 = 1) }
      let sound := 1000 ≤ c.max ∧ c.max ≤ 30000 ∧ c.split < c.max ∧ c.e1 ∈ [1, 2, 5, 10]
        ∧ (c.split = 0 ∨ c.e2 ∈ [2, 5, 10, 20] ∧ c.e1 < c.e2) ∧ 1 ≤ c.k ∧ c.k ≤ 4 ∧ 1 ≤ c.band ∧ c.band ≤ 100
        ∧ 1 ≤ c.count ∧ c.count ≤ 8 ∧ c.spike ≤ 1000 ∧ c.tareLimit ≤ c.max ∧ field body 15 1 ≤ 1
      (a < 1 ∨ 16 < a → exec (.stnConfig body) s = .next (s.responded 32 .badArg false [] 18))
      ∧ (1 ≤ a → a ≤ 16 → (s.station a).state ≠ .off →
          exec (.stnConfig body) s = .next (s.responded 32 .wrongState false [] 18))
      ∧ (1 ≤ a → a ≤ 16 → (s.station a).state = .off → ¬ sound →
          exec (.stnConfig body) s = .next (s.responded 32 .badArg false [] 18))
      ∧ (1 ≤ a → a ≤ 16 → (s.station a).state = .off → sound →
          exec (.stnConfig body) s = .next
            (State.responded (s.setChannel a { s.channel a with config := c }) 32 .ok false [] 18)))
    ∧ (body.length = 12 →
      let m := field body 4 1
      let n := field body 5 2
      let sound := (field body 1 1 = 1 ∨ field body 1 1 = 2) ∧ field body 2 1 ≤ 1 ∧ field body 3 1 ≤ 3
        ∧ (m = 1 ∧ 1 ≤ n ∧ n ≤ 2048 ∨ (m = 2 ∨ m = 3) ∧ n ≤ 2048 ∨ m = 4 ∧ n = 0)
        ∧ field body 7 1 ≤ 24 ∧ field body 8 3 ≤ 999999 ∧ 1 ≤ field body 11 1 ∧ field body 11 1 ≤ 3
        ∧ field body 12 1 ≤ 1 ∧ ¬ (field body 1 1 = 1 ∧ field body 12 1 = 1)
      (¬ sound → exec (.wchSet body) s = .next (s.responded 96 .badArg false [] 15))
      ∧ (sound → ∃ w : WatchChannel,
          w.enable = decide (field body 2 1 = 1) ∧ w.onAdd = decide (field body 3 1 % 2 = 1)
          ∧ w.onVoid = decide (2 ≤ field body 3 1) ∧ maskCode w.mask = m ∧ w.article = n ∧ w.clerk = field body 7 1
          ∧ w.threshold = field body 8 3 ∧ watchActionCode w.action = field body 11 1
          ∧ w.sequential = decide (field body 12 1 = 1) ∧ w.count = 0
          ∧ exec (.wchSet body) s = .next (State.responded
              { s with wu := if field body 1 1 = 1 then { s.wu with a := w } else { s.wu with b := w } } 96 .ok false []
              15)))

/-- STN.MODE: the configured mode with its side effect and the state the table of R11 moves the station to; a mode that
the kind of station may not have is BAD_ARG. OFF takes a polled scale out of service (R10); a move between two
in-service states queues the in-service SETMODE (R17), releases the pin with one evaluation (R51, R104) and, out of
NORMAL, empties the copy map and queues a PURGE "all" or its backlog marker (R21, R92). While the station is JOINING the
join target is recomputed: where it differs, the join SETMODE is rewritten and its sent mark cleared (R9). -/
def Obligations.StnModeMoves : Prop :=
  ∀ (s : State) (a x : Nat), s.op.resetLow = false → 1 ≤ a → a ≤ 18 →
    let body := chars 1 a ++ chars 1 x
    let st := s.station a
    (x < 1 ∨ 4 < x ∧ x < 256 ∨ 16 < a ∧ (x = 3 ∨ x = 4) →
      exec (.stnMode body) s = .next (s.responded 33 .badArg false [] 5))
    ∧ ∀ m, modeCode m = x → (a ≤ 16 ∨ m = .off ∨ m = .normal) →
        ∃ t, exec (.stnMode body) s = .next t
          ∧ t.op.response = some { code := 33, result := .ok, clamped := false, body := [] }
          ∧ (t.station a).mode = m
          ∧ (t.station a).detachedFlag = (if m = .normal then false else if m = .detached then true else st.detachedFlag)
          ∧ (t.station a).score = (if m = .normal then 0 else st.score)
          ∧ (t.station a).state =
              (match m, st.state with
                | .off, _ => .off
                | _, .off => .absent
                | _, .absent => .absent
                | _, .joining => .joining
                | .normal, _ => .normal
                | .detached, _ => .detached
                | .proof, _ => .proof)
          ∧ (∀ b, b ≠ a → (t.station b).mode = (s.station b).mode ∧ (t.station b).state = (s.station b).state
              ∧ (t.station b).miss = (s.station b).miss ∧ (t.station b).score = (s.station b).score)
          ∧ (m = .off → polled st.state = true →
              t.station a = { st with mode := .off, state := .off, queue := [], backlog := .articles [], holdOff := false,
                                      showOwed := false, miss := 0 }
              ∧ (a ≤ 16 → s.LeftService t a))
          ∧ (a ≤ 16 → m ≠ .off → s.inService a = true → (t.station a).state ≠ st.state →
              let ch := if (s.channel a).ctx.pin.isSome then unpinned (s.channel a) else s.channel a
              (∃ e ∈ (t.station a).queue, e.msg = .setmode (t.station a).state false (s.layoutOf a))
              ∧ t.channel a =
                  judged ch (formVerdict ch s.op.settings.increment (decide ((t.station a).state = .proof)))
              ∧ (t.channel a).ctx.pin = none
              ∧ (∀ p, (s.channel a).ctx.pin = some p → a ∉ (t.article p.number).pins)
              ∧ (st.state ≠ .normal → t.copyMap a = s.copyMap a)
              ∧ (st.state = .normal → t.copyMap a = [] ∧ (∀ e ∈ s.copyMap a, a ∉ (t.article e.article).holders)
                ∧ ((∃ e ∈ (t.station a).queue, e.msg = .purgeAll) ∨ (t.station a).backlog = .all)))
          ∧ (st.state = .joining → m ≠ .off → ∀ old layout sent rest,
              st.queue = { msg := .setmode old true layout, sent := sent } :: rest →
              let target : StationState :=
                if m = .proof then .proof else if m = .detached then .detached else .normal
              let rewritten : List Entry :=
                if old = target then st.queue else { msg := .setmode target true layout, sent := false } :: rest
              (t.station a).queue.map (·.msg) = rewritten.map (·.msg)
              ∧ ∀ v, s.lc.visit = some v → v.probe = false → polled (s.station v.station).state = true →
                  (t.station a).queue = rewritten)

/-- R109: the record becomes enrolled with the flag and keeps its scale, its active ticket and its tickets; nothing else
changes, and a refused command changes nothing. -/
def Obligations.ClkEnrolStores : Prop :=
  ∀ (s : State) (c x : Nat), s.op.resetLow = false → c < 256 → x < 256 →
    let body := chars 1 c ++ chars 1 x
    (c < 1 ∨ 24 < c ∨ 1 < x → exec (.clkEnrol body) s = .next (s.responded 48 .badArg false [] 5))
    ∧ (1 ≤ c → c ≤ 24 → x ≤ 1 → exec (.clkEnrol body) s = .next (State.responded
        (s.setClerk c { s.clerk c with enrolled := true, supervisor := decide (x = 1) }) 48 .ok false [] 5))

/-- LOGIN, LOGOUT and CLK.REMOVE: the clerk's record, the service contexts and the pins they move (R110, R112, R113), and
the settle check that follows the one pin they release (R97, R100). The clerk of a scale is read from the service context
(log entry 15). -/
def Obligations.ClerksMove : Prop :=
  (∀ (s : State) (a c : Nat), s.takes a →
    (c < 1 ∨ 24 < c ∨ (s.clerk c).enrolled = false → s.turnsAway (.login a c) a 8 .noClerk)
    ∧ (1 ≤ c → c ≤ 24 → (s.clerk c).enrolled = true →
      ∃ t, exec (.login a c) s = .next t ∧ t.answered a 8 .ok (chars 2 ((s.clerk c).active.getD 0))
        ∧ (s.clerkAt a = some c → s.took t a ∧ Changes [.lc] s t)
        ∧ (s.clerkAt a ≠ some c →
            t.clerk c = { s.clerk c with scale := some a } ∧ t.clerkAt a = some c
            ∧ (t.channel a).ctx.activeTicket = (s.clerk c).active
            ∧ (∀ d, s.clerkAt a = some d → t.clerk d = { s.clerk d with scale := none } ∧ (t.channel a).ctx.pin = none)
            ∧ (∀ b, b ≠ a → (s.clerk c).scale = some b → s.clerkAt b = some c →
                t.clerkAt b = none ∧ (t.channel b).ctx.activeTicket = none ∧ (t.channel b).ctx.pin = none)
            ∧ (∀ d p, s.clerkAt a = some d → (s.clerk c).scale = none → (s.channel a).ctx.pin = some p →
                s.PinEnded t t.op a p.number ((s.article p.number).withoutPin a))
            ∧ (∀ b p, s.clerkAt a = none → b ≠ a → (s.clerk c).scale = some b → s.clerkAt b = some c →
                (s.channel b).ctx.pin = some p → s.PinEnded t t.op b p.number ((s.article p.number).withoutPin b)))))
  ∧ (∀ (s : State) (a : Nat), s.takes a →
      ∃ t, exec (.logout a) s = .next t ∧ t.answered a 9 .ok [] ∧ s.took t a
        ∧ (s.clerkAt a = none → Changes [.lc] s t)
        ∧ ∀ c, s.clerkAt a = some c → t.clerk c = { s.clerk c with scale := none } ∧ t.clerkAt a = none
            ∧ (t.channel a).ctx.activeTicket = none ∧ (t.channel a).ctx.pin = none
            ∧ (∀ n, t.ticketOf n = s.ticketOf n) ∧ (∀ d, d ≠ c → t.clerk d = s.clerk d)
            ∧ ∀ p, (s.channel a).ctx.pin = some p → s.PinEnded t t.op a p.number ((s.article p.number).withoutPin a))
  ∧ ∀ (s : State) (c : Nat), s.op.resetLow = false → 1 ≤ c → c ≤ 24 →
      ((s.clerk c).enrolled = false → exec (.clkRemove (chars 1 c)) s = .next (s.responded 49 .notFound false [] 4))
      ∧ ((s.clerk c).enrolled = true → (∃ k ∈ s.sc.tickets, k.clerk = c) →
          exec (.clkRemove (chars 1 c)) s = .next (s.responded 49 .inUse false [] 4))
      ∧ ((s.clerk c).enrolled = true → (∀ k ∈ s.sc.tickets, k.clerk ≠ c) →
          ∃ t, exec (.clkRemove (chars 1 c)) s = .next t ∧ t.clerk c = Clerk.powerOn ∧ t.sc.tickets = s.sc.tickets
            ∧ t.op.response = some { code := 49, result := .ok, clamped := false, body := [] }
            ∧ ∀ a, (s.clerk c).scale = some a → s.clerkAt a = some c → t.clerkAt a = none ∧ (t.channel a).ctx.pin = none
                ∧ ∀ p, (s.channel a).ctx.pin = some p →
                    s.PinEnded t t.op a p.number ((s.article p.number).withoutPin a))

/-- VOID_TICKET, TKT.CANCEL and the expiry deadline of a PARKED ticket remove it as abandoned, accounted to its clerk
and the grand row; SKIP removes an empty ticket without accounting and takes its number off the now-serving list, with
a CALLOUT where the list named it (R18, R152, R153); VOID_TICKET and SKIP refused change nothing, and a TKT.CANCEL of
a number without a ticket is NOT_FOUND (R125 to R127, R129, R156, R176). The model's choices: the expiry brings the
time base to its deadline (log entry 1), the notice of the accounting comes before TICKET_EXPIRED (log entry 8), and a
CALLOUT for a full queue, in states no run reaches, is dropped (log entry 12). -/
def Obligations.TicketsLeave : Prop :=
  (∀ (s : State) (a c : Nat) (k : Ticket), s.takes a → s.mans a c → s.activeOf c = some k →
    ((k.state = .held ∨ ∃ m, k.state = .opened m) →
      ∃ t, exec (.voidTicket a) s = .next t ∧ t.answered a 15 .ok (chars 2 k.number) ∧ s.removed t k
        ∧ t.tu = (s.accountAbandoned k).tu ∧ t.op = (s.accountAbandoned k).op)
    ∧ (¬ (k.state = .held ∨ ∃ m, k.state = .opened m) → s.turnsAway (.voidTicket a) a 15 .wrongState))
  ∧ (∀ (s : State) (a : Nat), s.takes a →
      (s.clerkAt a = none → s.turnsAway (.voidTicket a) a 15 .noClerk ∧ s.turnsAway (.skip a) a 20 .noClerk)
      ∧ ∀ c, s.clerkAt a = some c →
        ((∀ k, s.activeOf c = some k → openOrHeld k = false) → s.turnsAway (.voidTicket a) a 15 .wrongState)
        ∧ (∀ k, s.activeOf c = some k → openOrHeld k = true → (s.station a).state = .proof →
            s.turnsAway (.voidTicket a) a 15 .proofOnly)
        ∧ ((s.station a).state = .proof → s.turnsAway (.skip a) a 20 .proofOnly)
        ∧ ((s.station a).state ≠ .proof →
            (∀ k, s.activeOf c = some k → (∀ m, k.state ≠ .opened m) ∨ k.queueNumber = none ∨ k.items ≠ []) →
            s.turnsAway (.skip a) a 20 .wrongState))
  ∧ (∀ (s : State) (n : Nat), s.op.resetLow = false → 1 ≤ n → n ≤ 999 → s.ticketOf n = none →
      exec (.tktCancel (chars 2 n)) s = .next (s.responded 65 .notFound false [] 5))
  ∧ (∀ (s : State) (n : Nat) (k : Ticket), s.op.resetLow = false → 1 ≤ n → n ≤ 999 → s.ticketOf n = some k →
      ((∃ job, k.state = .printing job) →
        exec (.tktCancel (chars 2 n)) s = .next (s.responded 65 .wrongState false [] 5))
      ∧ ((∀ job, k.state ≠ .printing job) →
        ∃ t, exec (.tktCancel (chars 2 n)) s = .next t ∧ s.removed t k ∧ t.tu = (s.accountAbandoned k).tu
          ∧ t.op.fifo = (s.accountAbandoned k).op.fifo
          ∧ t.op.response = some { code := 65, result := .ok, clamped := false, body := [] }))
  ∧ (∀ (s : State) (n m : Nat) (k : Ticket), s.op.resetLow = false → s.ticketOf n = some k → k.state = .parked m →
      ∃ t, exec (.expiryDeadlineExpiry n) s = .next t ∧ s.removed t k ∧ t.tu = (s.accountAbandoned k).tu
        ∧ t.op.now = max s.op.now m
        ∧ t.op = (State.raise (State.accountAbandoned (s.setNow (max s.op.now m)) k) .ticketExpired
            [n, k.clerk, optionSubject k.queueNumber, k.total]).op)
  ∧ ∀ (s : State) (a c q m : Nat) (k : Ticket), s.takes a → s.mans a c → s.activeOf c = some k →
      k.state = .opened m → k.items = [] → k.queueNumber = some q →
      ∃ t, exec (.skip a) s = .next t ∧ t.answered a 20 .ok (chars 2 k.number ++ chars 1 q) ∧ s.removed t k
        ∧ t.tu = s.tu ∧ t.qc = { s.qc with serving := s.qc.serving.filter (fun e => e.1 != q) }
        ∧ ((∃ e ∈ s.qc.serving, e.1 = q) → s.CalloutOffered t)
        ∧ ((∀ e ∈ s.qc.serving, e.1 ≠ q) → t.station 18 = s.station 18)

/-- RELEASE of a supervisor and TKT.RELEASE: a HELD ticket returns to OPEN with its idle deadline set and its last
activity renewed; any other ticket is WRONG_STATE (R126, R128). The other refusals in their order: NO_CLERK, PROOF_ONLY,
NOT_SUPERVISOR and, for a number without a ticket, WRONG_STATE of RELEASE; NOT_FOUND of TKT.RELEASE. -/
def Obligations.TicketsReleased : Prop :=
  (∀ (s : State) (n : Nat) (k : Ticket), 1 ≤ n → n ≤ 999 → s.ticketOf n = some k →
    let opened := s.sc.tickets.map (fun x => if x.number = n then
      { k with state := .opened (moment s.op.now s.idleTimeout), lastActivity := s.op.now } else x)
    (s.op.resetLow = false →
      (k.state = .held → exec (.tktRelease (chars 2 n)) s = .next (State.responded (s.setTickets opened) 66 .ok false [] 5))
      ∧ (k.state ≠ .held → exec (.tktRelease (chars 2 n)) s = .next (s.responded 66 .wrongState false [] 5)))
    ∧ ∀ a c, s.takes a → s.mans a c →
        ((s.clerk c).supervisor = false → s.turnsAway (.release a n) a 17 .notSupervisor)
        ∧ ((s.clerk c).supervisor = true → k.state ≠ .held → s.turnsAway (.release a n) a 17 .wrongState)
        ∧ ((s.clerk c).supervisor = true → k.state = .held →
          ∃ t, exec (.release a n) s = .next t ∧ t.answered a 17 .ok (chars 2 n) ∧ s.took t a
            ∧ t.sc = { s.sc with tickets := opened } ∧ Changes [.sc, .lc] s t))
  ∧ (∀ (s : State) (n : Nat), s.op.resetLow = false → 1 ≤ n → n ≤ 999 → s.ticketOf n = none →
      exec (.tktRelease (chars 2 n)) s = .next (s.responded 66 .notFound false [] 5))
  ∧ ∀ (s : State) (a n : Nat), s.takes a →
      (s.clerkAt a = none → s.turnsAway (.release a n) a 17 .noClerk)
      ∧ ∀ c, s.clerkAt a = some c →
        ((s.station a).state = .proof → s.turnsAway (.release a n) a 17 .proofOnly)
        ∧ ((s.station a).state ≠ .proof → (s.clerk c).supervisor = false → s.turnsAway (.release a n) a 17 .notSupervisor)
        ∧ ((s.station a).state ≠ .proof → (s.clerk c).supervisor = true → s.ticketOf n = none →
            s.turnsAway (.release a n) a 17 .wrongState)

/-- What the live bank takes: the additions of R175 for a printed ticket and of R176 for an abandoned one, field by
field and held at the maximum of each, with the SATURATED mark and TOTALS_SATURATED for the first row held, in the order
of log entry 16 (R177). TOT.CLOSE freezes the live bank and makes the clear bank live under the next period number, and
with a frozen bank is BUSY; TOT.CLEAR clears the frozen bank and answers its name and its old period, and with none is
WRONG_STATE (R178, R180). -/
def Obligations.PeriodsCloseAndClear : Prop :=
  (∀ (s : State) (k : Ticket) (a : Nat), s.Accounted (s.post k a) 1 k.number (postingGains k a))
  ∧ (∀ (s : State) (k : Ticket), s.Accounted (s.accountAbandoned k) 2 k.number (abandonedGains k))
  ∧ (∀ top x d : Nat, satAdd top x d = min top (x + d) ∧ (holds top x d = true ↔ top < x + d))
  ∧ ∀ s : State, s.op.resetLow = false →
    let p := s.liveBank.period
    let q := if p = 65535 then 0 else p + 1
    (s.tu.frozen = true → exec (.totClose []) s = .next (s.responded 112 .busy false [] 3))
    ∧ (s.tu.frozen = false → p ≤ 65535 →
      exec (.totClose []) s = .next (State.responded
        { s with tu :=
          (match s.tu.live with
            | .a => { s.tu with b := { s.tu.b with period := q }, live := .b, frozen := true }
            | .b => { s.tu with a := { s.tu.a with period := q }, live := .a, frozen := true }) }
        112 .ok false
        (chars 1 (bankCode s.tu.live) ++ chars 2 p ++ chars 1 (bankCode (otherBank s.tu.live)) ++ chars 2 q) 3))
    ∧ (s.tu.frozen = false → exec (.totClear []) s = .next (s.responded 114 .wrongState false [] 3))
    ∧ (s.tu.frozen = true → exec (.totClear []) s = .next (State.responded
        { s with tu :=
          (match s.tu.live with
            | .a => { s.tu with b := Bank.clear, frozen := false }
            | .b => { s.tu with a := Bank.clear, frozen := false }) }
        114 .ok false
        (chars 1 (bankCode (otherBank s.tu.live)) ++ chars 2 (s.tu.bank (otherBank s.tu.live)).period) 3))

/-! ## The counter line -/

/-- The reply window opens when the frame has been sent, and closes after the reply window of R185. A visit without a
reply in it, and one whose reply does not complete or fails its check (R5), end with a miss unless they are probes; a
failed check also raises a scale's error score by 4. The third miss takes the station to ABSENT with its queue emptied,
with STATION_DOWN where it was in service, and the other blocks drop what they hold for it (R3, R4, R6, R10). The
model's choices: the expiry brings the time base to the end of the window and a reply that does not complete moves no
time (log entry 1), and STATION_DOWN comes before the other notices of the departure (log entry 8). -/
def Obligations.VisitsEnd : Prop :=
  (∀ (s : State) (v : Visit), s.lc.visit = some v → v.window = none →
    exec .downstreamSent s = .next { s with lc :=
      { s.lc with visit := some { v with window := some (moment s.op.now s.op.settings.replyWindow) } } })
  ∧ (∀ s : State, s.lc.visit = none → ∀ l, exec .downstreamSent s = .next s ∧ exec (.replyFrame l) s = .next s
      ∧ exec .replyWindowExpiry s = .next s ∧ exec .replyIncomplete s = .next s)
  ∧ (∀ (s : State) (v : Visit) (m : Nat), s.lc.visit = some v → v.window = some m →
      ∃ t, exec .replyWindowExpiry s = .next t ∧ t.op.now = max s.op.now m
        ∧ t.lc.slotCount = (if 8 ≤ s.lc.slotCount then 1 else s.lc.slotCount + 1)
        ∧ (t.station v.station).score = (s.station v.station).score
        ∧ (v.probe = true → (t.station v.station).state = (s.station v.station).state
            ∧ (t.station v.station).miss = (s.station v.station).miss)
        ∧ (v.probe = false → (s.station v.station).miss < 2 →
            (t.station v.station).state = (s.station v.station).state
            ∧ (t.station v.station).miss = (s.station v.station).miss + 1)
        ∧ (v.probe = false → 2 ≤ (s.station v.station).miss →
            t.station v.station = { s.station v.station with
              state := .absent, queue := [], backlog := .articles [], holdOff := false, showOwed := false, miss := 0 }
            ∧ (isScale v.station = true → s.LeftService t v.station)
            ∧ (v.station = 17 ∨ v.station = 18 → Changes [.lc, .op] s t)
            ∧ (s.inService v.station = true → s.op.overflow = false → s.op.fifo.length < 32 →
                t.op.fifo.take (s.op.fifo.length + 1) =
                  s.op.fifo ++ [{ kind := .stationDown, time := s.op.clock, subjects := [v.station] }])
            ∧ (s.inService v.station = false → ∀ x ∈ t.op.fifo.drop s.op.fifo.length, x.kind ≠ .stationDown)))
  ∧ (∀ (s : State) (v : Visit), s.lc.visit = some v →
      exec .replyIncomplete s = .next
        ((if v.probe then s.raiseScore v.station else (s.raiseScore v.station).miss v.station).endVisit.nextSlot)
      ∧ ∀ l, parseReply v.station l = none → exec (.replyFrame l) s = exec .replyIncomplete s)
  ∧ (∀ (a : Nat) (l : List Byte),
      l.length < 6 ∨ (∃ x, l[0]? = some x ∧ x.toNat ≠ a)
        ∨ (∃ k, l[1]? = some k ∧ ¬ (k.toNat = 16 ∨ kindOf a = .scale ∧ 17 ≤ k.toNat ∧ k.toNat ≤ 20
            ∨ kindOf a = .dispenser ∧ k.toNat = 21))
        ∨ (∃ n, l[3]? = some n ∧ (120 < n.toNat ∨ l.length < 6 + n.toNat
            ∨ number ((l.drop (4 + n.toNat)).take 2) ≠ (crc (l.take (4 + n.toNat))).toNat)) →
      parseReply a l = none)
  ∧ (∀ (s : State) (v : Visit), s.lc.visit = some v → v.station = 17 ∨ v.station = 18 →
      ∃ t, exec .replyIncomplete s = .next t ∧ t.op.now = s.op.now
        ∧ (t.station v.station).score = (s.station v.station).score
        ∧ (v.probe = true → (t.station v.station).miss = (s.station v.station).miss)
        ∧ (v.probe = false → (t.station v.station).miss =
            if (s.station v.station).miss < 2 then (s.station v.station).miss + 1 else 0))
  ∧ ∀ (s : State) (v : Visit), s.lc.visit = some v → v.station ≤ 16 →
      (s.station v.station).detachedFlag = true ∨ (s.station v.station).score < 28 ∨ 32 ≤ (s.station v.station).score →
      ∃ t, exec .replyIncomplete s = .next t ∧ t.op.now = s.op.now
        ∧ (t.station v.station).score = min 255 ((s.station v.station).score + 4)
        ∧ (v.probe = true → (t.station v.station).state = (s.station v.station).state
            ∧ (t.station v.station).miss = (s.station v.station).miss)
        ∧ (v.probe = false → (s.station v.station).miss < 2 →
            (t.station v.station).state = (s.station v.station).state
            ∧ (t.station v.station).miss = (s.station v.station).miss + 1)
        ∧ (v.probe = false → 2 ≤ (s.station v.station).miss → (t.station v.station).state = .absent
            ∧ (t.station v.station).queue = [] ∧ (t.station v.station).miss = 0)

/-- The error score that reaches 32 with the detached flag clear: the flag is set, a NORMAL scale goes to DETACHED, the
join target of a JOINING one is recomputed (R9), and STATION_DETACHED is placed (R7). What a move out of NORMAL queues:
the in-service SETMODE rewritten in place, behind a sent head or at the front (R17), and the PURGE "all", which withdraws
every unsent FILL and PURGE, is added at the tail, with a SHOW owed behind it, or becomes the backlog's marker (R21). -/
def Obligations.ScoreDetaches : Prop :=
  (∀ (s : State) (a : Nat), isScale a = true → (s.station a).detachedFlag = false → 28 ≤ (s.station a).score →
    (s.station a).score < 32 →
    ((s.raiseScore a).station a).score = (s.station a).score + 4
    ∧ ((s.raiseScore a).station a).detachedFlag = true
    ∧ ((s.station a).state = .normal → ((s.raiseScore a).station a).state = .detached
        ∧ (s.raiseScore a).copyMap a = [] ∧ ((s.raiseScore a).channel a).ctx.pin = none
        ∧ (∃ e ∈ ((s.raiseScore a).station a).queue, e.msg = .setmode .detached false (s.layoutOf a))
        ∧ ((∃ e ∈ ((s.raiseScore a).station a).queue, e.msg = .purgeAll)
            ∨ ((s.raiseScore a).station a).backlog = .all))
    ∧ ((s.station a).state ≠ .normal → ((s.raiseScore a).station a).state = (s.station a).state)
    ∧ (∀ old layout sent rest, (s.station a).state = .joining →
        (s.station a).queue = { msg := .setmode old true layout, sent := sent } :: rest →
        let target : StationState := if (s.station a).mode = .proof then .proof else .detached
        ((s.raiseScore a).station a).queue =
          if old = target then (s.station a).queue else { msg := .setmode target true layout, sent := false } :: rest)
    ∧ (s.op.overflow = false → s.op.fifo.length < 32 → (s.raiseScore a).op.fifo.take (s.op.fifo.length + 1) =
        s.op.fifo ++ [{ kind := .stationDetached, time := s.op.clock, subjects := [a, 1] }]))
  ∧ ∀ (s : State) (a : Nat),
    let st := s.station a
    let new : Entry := { msg := .setmode st.state false (s.layoutOf a), sent := false }
    let rewritten (q : List Entry) : Prop := (s.offerSetmode a) = s.setStation a { st with queue := q }
    (∀ l e r, st.queue = l ++ e :: r → unsent isSetmode e = true → (∀ x ∈ l, unsent isSetmode x = false) →
      rewritten (l ++ new :: r))
    ∧ ((∀ x ∈ st.queue, unsent isSetmode x = false) →
        (st.queue = [] → rewritten [new])
        ∧ ∀ e r, st.queue = e :: r → (e.sent = true → rewritten (e :: new :: r))
          ∧ (e.sent = false → rewritten (new :: e :: r)))
    ∧ (s.inService a = false → s.offerPurgeAll a = s)
    ∧ (s.inService a = true →
        let kept := st.queue.filter (fun e => e.sent || !(isFill e.msg || isPurge e.msg))
        let all : Entry := { msg := .purgeAll, sent := false }
        (8 ≤ ordinary kept → s.offerPurgeAll a = s.setStation a { st with queue := kept, backlog := .all })
        ∧ (ordinary kept < 8 → st.showOwed = false ∨ ordinary kept = 7 →
            s.offerPurgeAll a = s.setStation a { st with queue := kept ++ [all], backlog := .articles [] })
        ∧ (ordinary kept < 7 → st.showOwed = true →
            s.offerPurgeAll a = s.setStation a
              { st with queue := kept ++ [all, { msg := s.verdictMsg a, sent := false }], backlog := .articles [],
                        showOwed := false }))

/-- The next slot visits the first polled station after the visit pointer, or probes the first ABSENT one after the
probe pointer, with the frame of R4. A good reply to a probe takes the station from ABSENT to JOINING, with the join
SETMODE for its target, unsent when the visit ends, as its queue's one entry. The join SETMODE acknowledged while its
mark says sent, by the operation and by a REPLY_FRAME with its D-ack, brings the station into service in the target
state, with STATION_UP and the first SHOW or CALLOUT (R3, R4, R6, R8, R9, R13). -/
def Obligations.RepliesJoin : Prop :=
  (∀ (s : State) (v : Visit) (r : Reply) (l : List Byte), s.lc.visit = some v → v.probe = true →
    parseReply v.station l = some r →
    ∃ t, exec (.replyFrame l) s = .next t ∧ (t.station v.station).state = .joining
      ∧ (t.station v.station).dSeq = true ∧ (t.station v.station).lastU = false ∧ (t.station v.station).miss = 0
      ∧ ((t.station v.station).queue.map (·.msg)) =
          [.setmode (joinTarget v.station (s.station v.station)) true (s.layoutOf v.station)]
      ∧ (∃ u, t = State.nextSlot (State.endVisit u) ∧ (u.station v.station).queue =
          [{ msg := .setmode (joinTarget v.station (s.station v.station)) true (s.layoutOf v.station), sent := false }])
      ∧ (kindOf v.station = .scale →
          t.channel v.station = { Channel.powerOn with config := (s.channel v.station).config }
          ∧ (t.station v.station).score = (s.station v.station).score - 1))
  ∧ (∀ (s : State) (a : Nat) (target : StationState) (layout : Option ScaleLayout) (rest : List Entry),
      (s.station a).queue = { msg := .setmode target true layout, sent := true } :: rest →
      let t := s.acknowledge a (s.station a).dSeq
      (t.station a).state = target ∧ (t.station a).dSeq = !(s.station a).dSeq
      ∧ t.op = (s.raise .stationUp [a, targetCode target]).op)
  ∧ (∀ (s : State) (v : Visit) (r : Reply) (l : List Byte) (target : StationState) (layout : Option ScaleLayout),
      s.lc.visit = some v → v.probe = false → parseReply v.station l = some r → serving target = true →
      (s.station v.station).queue = [{ msg := .setmode target true layout, sent := true }] →
      r.dAck = (s.station v.station).dSeq → r.msg = .nil ∨ r.uSeq = (s.station v.station).lastU →
      ∃ u, exec (.replyFrame l) s = .next (State.nextSlot (State.endVisit u))
        ∧ (u.station v.station).state = target ∧ (u.station v.station).holdOff = r.hold
        ∧ u.op = (s.raise .stationUp [v.station, targetCode target]).op
        ∧ (isScale v.station = true → (u.station v.station).queue =
            [{ msg := .verdict v.station (s.channel v.station).stamp (s.channel v.station).verdict, sent := false }])
        ∧ (v.station = 17 → (u.station v.station).queue = [])
        ∧ (v.station = 18 → (u.station v.station).queue =
            [{ msg := .callout s.qc.level s.qc.waiting.length s.qc.serving, sent := false }]))
  ∧ ∀ s : State, s.lc.visit = none → s.op.resetLow = false →
      let after (pointer i : Nat) : Nat := (pointer + i) % 18 + 1
      let absent (b : Nat) : Prop := (s.station b).state = .absent
      let visits (b : Nat) : Prop := polled (s.station b).state = true
      let probed (b : Nat) : State := { s with lc := { s.lc with
        probePtr := b, visit := some { station := b, probe := true, frame := frame b 1 0#8 [], window := none } } }
      let opened (b kind : Nat) (data : List Byte) : State :=
        { s with lc := { s.lc with
          visitPtr := b
          visit := some
            { station := b, probe := false, window := none,
              frame := frame b kind (flagsChar (s.station b).dSeq (s.station b).lastU false) data } } }
      ((∀ b, 1 ≤ b → b ≤ 18 → ¬ visits b ∧ ¬ absent b) → s.nextSlot = s)
      ∧ (∀ i, i < 18 → absent (after s.lc.probePtr i) → (∀ j, j < i → ¬ absent (after s.lc.probePtr j)) →
          8 ≤ s.lc.slotCount ∨ (∀ b, 1 ≤ b → b ≤ 18 → ¬ visits b) → s.nextSlot = probed (after s.lc.probePtr i))
      ∧ ∀ i, i < 18 → visits (after s.lc.visitPtr i) → (∀ j, j < i → ¬ visits (after s.lc.visitPtr j)) →
          s.lc.slotCount < 8 ∨ (∀ b, 1 ≤ b → b ≤ 18 → ¬ absent b) →
          let b := after s.lc.visitPtr i
          let st := s.station b
          (st.queue = [] ∨ st.holdOff = true ∧ st.state ≠ .joining → s.nextSlot = opened b 1 [])
          ∧ ∀ e rest, st.queue = e :: rest → st.holdOff = false ∨ st.state = .joining →
              s.nextSlot = (opened b (downKind e.msg) (payload e.msg)).setStation b
                { st with queue := { e with sent := true } :: rest }

/-- A good reply to a visit that is not a probe is used in this order: the miss count is cleared and a scale's score
lowered by 1 (R6); its D-ack removes a sent head and toggles D-seq (R13), and the freed entry is refilled from the
backlog or with the SHOW owed (R21); its hold-off bit is taken in service (R16); then its message, new by its U-seq, has
the effect of its own row, and one that repeats the last taken has none (R14, R22). That a row stands for the taking of
its message is the model's choice (log entry 4). -/
def Obligations.RepliesActAsRows : Prop :=
  (∀ (a : Nat) (m : UpMsg) (i : Instr) (s : State), 1 ≤ a → a ≤ 18 → sendable (kindOf a) m = true →
    messageRow a m = some i → exec i s = .next (s.takeMessage a m))
  ∧ (∀ (s : State) (v : Visit) (r : Reply) (l : List Byte), s.lc.visit = some v → v.probe = false →
      parseReply v.station l = some r →
      let heard := (s.setStation v.station { s.station v.station with miss := 0 }).lowerScore v.station
      let w := (heard.acknowledge v.station r.dAck).applyHold v.station r.hold
      (w.station v.station).miss = 0 ∧ (w.station v.station).lastU = (s.station v.station).lastU
      ∧ Changes [.lc, .op] s w
      ∧ (kindOf v.station = .scale → (w.station v.station).score = (s.station v.station).score - 1)
      ∧ (w.station v.station).holdOff = (if w.inService v.station then r.hold else (s.station v.station).holdOff)
      ∧ (r.uSeq = (s.station v.station).lastU ∨ r.msg = .nil →
          exec (.replyFrame l) s = .next (State.nextSlot (State.endVisit w)))
      ∧ (r.uSeq ≠ (s.station v.station).lastU →
          exec (.replyFrame l) s = .next (State.nextSlot (State.endVisit (w.takeMessage v.station r.msg)))))
  ∧ (∀ (s : State) (a : Nat) (e : Entry) (rest : List Entry), (s.station a).queue = e :: rest → e.sent = true →
      let st := s.station a
      let out : Station := { st with queue := rest, dSeq := !st.dSeq }
      let t := s.acknowledge a st.dSeq
      ((∃ x y, e.msg = .setmode x false y) → t = s.setStation a out)
      ∧ ((∀ x y z, e.msg ≠ .setmode x y z) →
          (st.backlog = .articles [] → st.showOwed = false → t = s.setStation a out)
          ∧ (ordinary rest < 8 → st.backlog = .all → t = s.setStation a
              { out with queue := rest ++ [{ msg := .purgeAll, sent := false }], backlog := .articles [] })
          ∧ (∀ n l, ordinary rest < 8 → st.backlog = .articles (n :: l) → t = s.setStation a
              { out with queue := rest ++ [{ msg := .purge n, sent := false }], backlog := .articles l })
          ∧ (ordinary rest < 8 → st.backlog = .articles [] → st.showOwed = true → t = s.setStation a
              { out with queue := rest ++ [{ msg := s.verdictMsg a, sent := false }], showOwed := false })))
  ∧ (∀ (s : State) (a : Nat) (d : Bool), (∀ e rest, (s.station a).queue = e :: rest → e.sent = false) →
      s.acknowledge a d = s)
  ∧ ∀ (s : State) (a : Nat), s.acknowledge a (!(s.station a).dSeq) = s

/-- An ACTION or a TAKE that is not admitted, and any message from a station out of service, changes nothing and is left
to be repeated; an ACTION of a code that is not in the table is taken and answered UNKNOWN; characters outside a visit
are discarded (R4, R15, R22). -/
def Obligations.MessagesNotTaken : Prop :=
  ∀ s : State,
    (∀ a m, 1 ≤ a → a ≤ 18 → s.inService a = false → s.takeMessage a m = s)
    ∧ (∀ a act, s.admits a = false → s.takeMessage a (.action act) = s)
    ∧ (s.admits 17 = false → s.takeMessage 17 .take = s ∧ exec .take s = .next s)
    ∧ (∀ a code, s.takes a → 21 < code ∨ code = 0 → s.turnsAway (.unknownAction a code) a code .unknown)
    ∧ (∀ l, exec (.lineCharactersOutsideVisit l) s = .next s)

/-! ## Weighing -/

/-- A taken SAMPLES message: its readings in order, then one evaluation, and a SHOW where the verdict differs: in place
of an unsent SHOW, at the tail, or owed (R18, R28, R52). A FAULT reading empties the window and the history and keeps
the zero, the range, the noise, the tare and the service context (R29). An OK reading: the history of three and its
median, the noise count, the window, the stability check, the filter output, zero tracking, the range state and the
gross (R30 to R35, R37). -/
def Obligations.SamplesJudge : Prop :=
  (∀ (s : State) (a : Nat) (rs : List Reading), s.hears a → 1 ≤ rs.length → rs.length ≤ 4 →
    ∃ t, exec (.samples a rs) s = .next t ∧ s.took t a
      ∧ t.channel a = judged (rs.foldl takeReading (s.channel a)) (s.verdictOf a (rs.foldl takeReading (s.channel a)))
      ∧ ChannelOnly a s t ∧ Changes [.we, .lc] s t
      ∧ (let st := s.station a
         let v := s.verdictOf a (rs.foldl takeReading (s.channel a))
         let show' : Entry := { msg := .verdict a (((s.channel a).stamp + 1) % 65536) v, sent := false }
         let unsentShow (e : Entry) : Prop := e.sent = false ∧ isVerdict e.msg = true
         (v = (s.channel a).verdict → t.station a = { st with lastU := !st.lastU })
         ∧ (v ≠ (s.channel a).verdict →
             (∀ l e r, st.queue = l ++ e :: r → unsentShow e → (∀ x ∈ l, ¬ unsentShow x) →
               t.station a = { st with lastU := !st.lastU, queue := l ++ show' :: r, showOwed := false })
             ∧ ((∀ x ∈ st.queue, ¬ unsentShow x) →
                 (ordinary st.queue < 8 →
                   t.station a = { st with lastU := !st.lastU, queue := st.queue ++ [show'], showOwed := false })
                 ∧ (8 ≤ ordinary st.queue → t.station a = { st with lastU := !st.lastU, showOwed := true })))))
  ∧ (∀ ch : Channel, takeReading ch .fault =
      { ch with history := [], window := [], pass := 0, motion := .fault, result := none })
  ∧ (∀ (ch : Channel) (v : Int),
      (ch.window.length + 1 < 2 ^ ch.config.k →
        (takeReading ch (.ok v)).motion = .filling ∧ (takeReading ch (.ok v)).pass = 0
        ∧ (takeReading ch (.ok v)).result = none
        ∧ (takeReading ch (.ok v)).window.length = ch.window.length + 1)
      ∧ (2 ^ ch.config.k ≤ ch.window.length + 1 → ∃ r, (takeReading ch (.ok v)).result = some r
          ∧ (takeReading ch (.ok v)).window.length = 2 ^ ch.config.k
          ∧ (2 * 2 ^ ch.config.k * r.f ≤ 2 * (takeReading ch (.ok v)).window.sum + 2 ^ ch.config.k
            ∧ 2 * (takeReading ch (.ok v)).window.sum + 2 ^ ch.config.k < 2 * 2 ^ ch.config.k * (r.f + 1))
          ∧ r.fine = r.f - (takeReading ch (.ok v)).zero
          ∧ ((takeReading ch (.ok v)).motion = .stable ∨ (takeReading ch (.ok v)).motion = .motion)))
  ∧ ∀ (ch : Channel) (v : Int),
      let c := ch.config
      let t := takeReading ch (.ok v)
      t.config = c ∧ t.tare = ch.tare ∧ t.ctx = ch.ctx ∧ t.verdict = ch.verdict ∧ t.stamp = ch.stamp
      ∧ t.history = (ch.history ++ [v]).drop (ch.history.length + 1 - 3)
      ∧ (t.history.length < 3 → t.window.getLast? = some v ∧ t.noise = ch.noise)
      ∧ (∀ x y z, t.history = [x, y, z] → ∃ m ∈ [x, y, z], t.window.getLast? = some m
          ∧ 2 ≤ ([x, y, z].filter (fun i => decide (i ≤ m))).length
          ∧ 2 ≤ ([x, y, z].filter (fun i => decide (m ≤ i))).length
          ∧ t.noise = if c.spike ≠ 0 ∧ c.spike < (m - z).natAbs then min 65535 (ch.noise + 1) else ch.noise)
      ∧ t.window.dropLast =
          (if 2 ^ c.k ≤ ch.window.length then ch.window.drop (ch.window.length + 1 - 2 ^ c.k) else ch.window)
      ∧ (ch.window.length + 1 < 2 ^ c.k → t.zero = ch.zero ∧ t.range = ch.range)
      ∧ (2 ^ c.k ≤ ch.window.length + 1 →
          let steady := ∀ x ∈ t.window, ∀ y ∈ t.window, x - y ≤ c.band
          (steady → t.pass = min c.count (ch.pass + 1)
            ∧ t.motion = if min c.count (ch.pass + 1) = c.count then .stable else .motion)
          ∧ (¬ steady → t.pass = 0 ∧ t.motion = .motion)
          ∧ ∀ r, t.result = some r →
            t.zero = (if c.tracking = true ∧ t.motion = .stable ∧ ch.tare = .noTare ∧ ch.ctx.pin = none
                ∧ (r.f - ch.zero).natAbs ≤ 5 * c.e1 ∧ r.f.natAbs ≤ 2 * (c.max / 5) then r.f else ch.zero)
            ∧ t.range = (if c.split = 0 then .range1
                else match ch.range with
                  | .range1 => if 10 * (c.split : Int) < r.fine then .range2 else .range1
                  | .range2 => if r.fine ≤ 5 * (c.e1 : Int) then .range1 else .range2)
            ∧ r.gross = grossOf r.fine (if c.split = 0 ∨ t.range = .range1 then c.e1 else c.e2))

/-- The weighing actions, their checks in order and what they store: ZERO, TARE, PTARE, CLRTARE and QTY (R38, R40 to
R42, R45, R64). CLRTARE and PTARE 0 without a tare are evaluated as every action answered OK is (R51; log entry 17). -/
def Obligations.WeighingActionsAct : Prop :=
  ∀ (s : State) (a : Nat), s.takes a →
    let ch := s.channel a
    (ch.motion ≠ .stable → s.turnsAway (.zero a) a 6 .motion ∧ s.turnsAway (.tare a) a 3 .motion)
    ∧ (∀ r, ch.motion = .stable → ch.result = some r →
        (ch.tare ≠ .noTare → s.turnsAway (.zero a) a 6 .wrongState)
        ∧ (ch.tare = .noTare → ch.config.max / 5 < r.f.natAbs → s.turnsAway (.zero a) a 6 .zeroRange)
        ∧ (ch.tare = .noTare → r.f.natAbs ≤ ch.config.max / 5 → s.weighs (.zero a) a 6
            { ch with zero := r.f, range := .range1, result := some { f := r.f, fine := 0, gross := 0 } })
        ∧ (¬ (0 < r.gross ∧ r.gross ≤ ch.config.tareLimit ∧ weightState ch ≠ .overload) →
            s.turnsAway (.tare a) a 3 .tareRange)
        ∧ (0 < r.gross → r.gross ≤ ch.config.tareLimit → weightState ch ≠ .overload →
            s.weighs (.tare a) a 3 { ch with tare := .weighed r.gross.toNat }))
    ∧ (∀ g, 1 ≤ g → g ≤ ch.config.tareLimit → s.weighs (.ptare a g) a 4 { ch with tare := .keyed g })
    ∧ (∀ g, 1 ≤ g → ch.config.tareLimit < g → s.turnsAway (.ptare a g) a 4 .tareRange)
    ∧ (∀ g, ch.tare = .weighed g ∨ ch.tare = .preset g → s.turnsAway (.ptare a 0) a 4 .wrongState)
    ∧ (∀ g, ch.tare = .noTare ∨ ch.tare = .keyed g → s.weighs (.ptare a 0) a 4 { ch with tare := .noTare })
    ∧ s.weighs (.clrtare a) a 5 { ch with tare := .noTare }
    ∧ (∀ n, (∀ p, ch.ctx.pin = some p → p.content.mode ≠ .byCount) → s.turnsAway (.qty a n) a 7 .wrongState)
    ∧ ∀ p n, ch.ctx.pin = some p → p.content.mode = .byCount →
        (n < 1 ∨ 99 < n → s.turnsAway (.qty a n) a 7 .badValue)
        ∧ (1 ≤ n → n ≤ 99 → s.weighs (.qty a n) a 7 { ch with ctx := { ch.ctx with quantity := some n } })

/-- Rounding is half up: the gross to a whole multiple of the division, the applied tare likewise, a price to the
rounding increment, the effective unit price to the cent, and the net price of R59 from grams and cents a kilogram (R35,
R54, R56, R57, R59). -/
def Obligations.RoundingIsHalfUp : Prop :=
  (∀ (fine : Int) (e : Nat), 0 < e → (∃ k : Int, grossOf fine e = e * k)
    ∧ 20 * grossOf fine e ≤ 2 * fine + 10 * e ∧ 2 * fine + 10 * e < 20 * (grossOf fine e + e))
  ∧ (∀ t e : Nat, 0 < e → e ∣ roundTare t e ∧ 2 * roundTare t e ≤ 2 * t + e ∧ 2 * t + e < 2 * (roundTare t e + e))
  ∧ (∀ x d : Nat, 0 < d → d ∣ roundCents x d ∧ 2 * roundCents x d ≤ 2 * x + d ∧ 2 * x + d < 2 * (roundCents x d + d))
  ∧ (∀ p m : Nat, 200 * effectiveUnit p m ≤ 2 * p * (100 - m) + 100
      ∧ 2 * p * (100 - m) + 100 < 200 * (effectiveUnit p m + 1))
  ∧ ∀ net unit d : Nat, 0 < d → d ∣ weightPrice net unit d
      ∧ 2000 * weightPrice net unit d ≤ 2 * net * unit + 1000 * d
      ∧ 2 * net * unit + 1000 * d < 2000 * (weightPrice net unit d + d)

/-- The price state and the price of a verdict, by sale mode, and the fields a verdict shows: the weight state from the
motion state and the gross, the applied tare by the division in force, the pinned article, the quantity, the range and
the proof mark (R36, R53 to R56, R58 to R61, R63). -/
def Obligations.VerdictsPrice : Prop :=
  ∀ (ch : Channel) (d : Nat) (proof : Bool),
    let v := formVerdict ch d proof
    let e := if ch.config.split = 0 ∨ ch.range = .range1 then ch.config.e1 else ch.config.e2
    (ch.ctx.pin = none → v.price = none ∧ v.unit = none ∧ v.quantity = none ∧ v.pin = none
      ∧ v.priceState = (if ch.ctx.cancelled then .cancelled else .noPrice))
    ∧ (weightState ch ≠ .motion → weightState ch ≠ .stable → v.gross = none ∧ v.net = none)
    ∧ (∀ r, weightState ch = .motion ∨ weightState ch = .stable → ch.result = some r → v.gross = some r.gross
        ∧ v.net = some (r.gross - (v.tare.getD 0 : Nat)))
    ∧ (v.weight = weightState ch ∧ v.range = ch.range ∧ v.proof = proof)
    ∧ (ch.motion = .fault → v.weight = .fault) ∧ (ch.motion = .filling → v.weight = .filling)
    ∧ (∀ r, ch.motion = .motion ∨ ch.motion = .stable → ch.result = some r →
        ((ch.config.max : Int) + 9 * e < r.gross → v.weight = .overload)
        ∧ (r.gross ≤ (ch.config.max : Int) + 9 * e → r.gross < -(20 * (ch.config.e1 : Int)) → v.weight = .underload)
        ∧ (r.gross ≤ (ch.config.max : Int) + 9 * e → -(20 * (ch.config.e1 : Int)) ≤ r.gross →
            v.weight = if ch.motion = .stable then .stable else .motion))
    ∧ (ch.tare = .noTare → v.tare = none)
    ∧ (∀ g, ch.tare = .weighed g ∨ ch.tare = .keyed g ∨ ch.tare = .preset g → v.tare = some (roundTare g e))
    ∧ ∀ p, ch.ctx.pin = some p → v.unit = some (effectiveUnit p.content.price p.content.markdown)
        ∧ v.pin = some { number := p.number, revision := p.revision, name := p.content.name, mode := p.content.mode }
        ∧ (p.content.mode ≠ .byCount → v.quantity = none)
        ∧ (p.content.mode = .fixed → v.priceState = .priced
            ∧ v.price = some (roundCents (effectiveUnit p.content.price p.content.markdown) d))
        ∧ (∀ q, p.content.mode = .byCount → ch.ctx.quantity = some q → v.quantity = some q
            ∧ (let x := roundCents (q * effectiveUnit p.content.price p.content.markdown) d
               if 999999 < x then v.priceState = .priceOver ∧ v.price = none
               else v.priceState = .priced ∧ v.price = some x))
        ∧ (p.content.mode = .byWeight → v.net = none → v.priceState = .noPrice ∧ v.price = none)
        ∧ ∀ n, p.content.mode = .byWeight → v.net = some n →
            (n < 20 * (ch.config.e1 : Int) → v.priceState = .underMin ∧ v.price = none)
            ∧ (20 * (ch.config.e1 : Int) ≤ n →
                let x := weightPrice n.toNat (effectiveUnit p.content.price p.content.markdown) d
                if 999999 < x then v.priceState = .priceOver ∧ v.price = none
                else v.priceState = .priced ∧ v.price = some x)

/-! ## Pins and copies -/

/-- SELECT: its checks in order; the snapshot pinned with its preset tare and quantity; and, at a NORMAL scale without a
copy, the copy map: no entry while a change is in flight or the backlog holds "all"; a FILL behind the queue and a first
entry where there is room; with 32 entries the eviction of the last VALID one, whose PURGE is queued, and no FILL (R43,
R87 to R90, R93 to R95). The earlier pin, of another article or of the same, is released and its change in flight checked
for settling (R95, R97, R100, R101); with an eviction in the same SELECT the notices of both are not stated. -/
def Obligations.SelectPins : Prop :=
  ∀ (s : State) (a n : Nat), s.takes a →
    (s.clerkAt a = none → s.turnsAway (.select a n) a 1 .noClerk)
    ∧ (∀ c, s.clerkAt a = some c → (n < 1 ∨ 2048 < n ∨ (s.article n).state = .empty ∨ (s.article n).state = .retiring) →
        s.turnsAway (.select a n) a 1 .noArticle)
    ∧ ∀ c x, s.clerkAt a = some c → 1 ≤ n → n ≤ 2048 →
        (s.article n).state = .live ∨ (s.article n).state = .changing → (s.article n).content = some x →
        let ch := s.channel a
        let old : Channel := if ch.ctx.pin.isSome then unpinned ch else ch
        let p : Snapshot := { number := n, revision := (s.article n).revision, content := x }
        (ch.config.tareLimit < x.tare → (∀ g, ch.tare ≠ .weighed g ∧ ch.tare ≠ .keyed g) →
          s.turnsAway (.select a n) a 1 .tareRange)
        ∧ (x.tare ≤ ch.config.tareLimit ∨ (∃ g, ch.tare = .weighed g ∨ ch.tare = .keyed g) →
          ∃ t, exec (.select a n) s = .next t
            ∧ t.answered a 1 .ok (chars 2 n ++ chars 1 (s.article n).revision) ∧ s.took t a
            ∧ t.channel a = judged (pinnedWith old p) (s.verdictOf a (pinnedWith old p)) ∧ ChannelOnly a s t
            ∧ (t.channel a).ctx.pin = some p ∧ a ∈ (t.article n).pins
            ∧ (∀ e, ch.ctx.pin = some e → e.number ≠ n →
                ((s.station a).state = .normal → copyOf (s.copyMap a) n = none → s.changeOf n = none →
                  (s.station a).backlog ≠ .all → (s.copyMap a).length < 32) →
                s.PinEnded t t.op a e.number ((s.article e.number).withoutPin a))
            ∧ (∀ e d, ch.ctx.pin = some e → e.number = n → s.changeOf n = some d → d.oldRevision ≠ (s.article n).revision →
                s.PinEnded t t.op a n
                  { s.article n with pins := setInsert a ((s.article n).withoutPin a).pins })
            ∧ ((s.station a).state ≠ .normal → t.copyMap a = s.copyMap a)
            ∧ ((s.station a).state = .normal → copyOf (s.copyMap a) n = none → s.changeOf n = none →
                (s.station a).backlog ≠ .all → (s.copyMap a).length < 32 →
                t.copyMap a = { article := n, revision := (s.article n).revision, purging := false } :: s.copyMap a
                ∧ a ∈ (t.article n).holders
                ∧ { msg := .fill p, sent := false } ∈ (t.station a).queue)
            ∧ (∀ e, (s.station a).state = .normal → copyOf (s.copyMap a) n = some e →
                t.copyMap a = e :: withoutCopy (s.copyMap a) n)
            ∧ ((s.station a).state = .normal → copyOf (s.copyMap a) n = none →
                s.changeOf n ≠ none ∨ (s.station a).backlog = .all → t.copyMap a = s.copyMap a)
            ∧ ((s.station a).state = .normal → copyOf (s.copyMap a) n = none → s.changeOf n = none →
                (s.station a).backlog ≠ .all → 32 ≤ (s.copyMap a).length →
                (∀ e ∈ (t.station a).queue, isFill e.msg = true → e ∈ (s.station a).queue)
                ∧ ((∀ e ∈ s.copyMap a, e.purging = true) → t.copyMap a = s.copyMap a)
                ∧ ∀ l e r, s.copyMap a = l ++ e :: r → e.purging = false → (∀ y ∈ r, y.purging = true) →
                  let fill := (s.station a).queue.any (unsent (isFillOf e.article))
                  (fill = false →
                    t.copyMap a = (s.copyMap a).map (fun y => if y.article = e.article then { y with purging := true } else y)
                    ∧ { msg := .purge e.article, sent := false } ∈ (t.station a).queue)
                  ∧ (fill = true → t.copyMap a = withoutCopy (s.copyMap a) e.article
                    ∧ a ∉ (t.article e.article).holders)))

/-- CLEAR releases the pin with an evaluation and the settle check of the released article (R97); PURGED removes a
PURGING entry and its holder mark, and nothing else is done for a number that has none. A change in flight whose last
holder and old pins are gone then settles, with its CHANGE_SETTLED notice marked normal; otherwise it stays open (R91,
R96, R100, R101). -/
def Obligations.ClearAndPurged : Prop :=
  (∀ (s : State) (a : Nat), s.takes a →
    ∃ t, exec (.clear a) s = .next t ∧ t.answered a 2 .ok [] ∧ s.took t a ∧ (t.channel a).ctx.pin = none
      ∧ (t.channel a).ctx.clerk = s.clerkAt a ∧ ChannelOnly a s t
      ∧ (∀ p, (s.channel a).ctx.pin = some p →
          t.channel a = judged (unpinned (s.channel a)) (s.verdictOf a (unpinned (s.channel a)))
          ∧ s.PinEnded t t.op a p.number ((s.article p.number).withoutPin a))
      ∧ ((s.channel a).ctx.pin = none → Changes [.lc] s t))
  ∧ ∀ (s : State) (a : Nat), s.hears a →
      exec (.purged a none) s = .next (s.markTaken a)
      ∧ (∀ n, (∀ e, copyOf (s.copyMap a) n = some e → e.purging = false) →
          exec (.purged a (some n)) s = .next (s.markTaken a))
      ∧ ∀ n e, copyOf (s.copyMap a) n = some e → e.purging = true →
          ∃ t, exec (.purged a (some n)) s = .next t ∧ t.copyMap a = withoutCopy (s.copyMap a) n
            ∧ a ∉ (t.article n).holders ∧ s.took t a ∧ Changes [.cd, .art, .op, .lc] s t
            ∧ (s.changeOf n = none → t.op = s.op ∧ t.changeOf n = none)
            ∧ ∀ c, s.changeOf n = some c →
              let r := s.article n
              ((∀ b ∈ r.holders, b = a) → s.oldPins c = [] →
                t.changeOf n = none
                ∧ t.op = (s.raise .changeSettled
                    [n, changeKindCode c.kind, c.oldRevision, r.revision, 0, 0, 1]).op
                ∧ (r.state = .changing → t.article n = { r with state := .live, holders := [] })
                ∧ (r.state = .retiring → t.article n =
                    if r.pins = [] ∧ r.refs = 0 then Article.powerOn else { r with holders := [] }))
              ∧ ((∃ b ∈ r.holders, b ≠ a) ∨ s.oldPins c ≠ [] → t.changeOf n = some c ∧ t.op = s.op)

/-- The settle timeout: the change is gone, every old pin is cancelled, every remaining holder is DETACHED with its map
emptied; a STATION_DETACHED of each holder and CHANGE_SETTLED marked forced, with the numbers of scales and pins, are
the next notices (R102). That time stands at the deadline is the model's choice (log entry 1). -/
def Obligations.SettleTimeoutForces : Prop :=
  ∀ (s : State) (n : Nat) (c : Change), s.op.resetLow = false → s.changeOf n = some c →
    ∃ t, exec (.settleTimeout n) s = .next t ∧ t.changeOf n = none ∧ t.op.now = max s.op.now c.deadline
      ∧ (∀ a ∈ s.oldPins c, (t.channel a).ctx.pin = none ∧ (t.channel a).ctx.cancelled = true)
      ∧ (∀ a ∈ (s.article n).holders, (t.station a).state = .detached ∧ (t.station a).detachedFlag = true
          ∧ ((s.station a).state = .normal → t.copyMap a = []) ∧ (t.channel a).ctx.pin = none)
      ∧ (∀ a, a ∉ s.oldPins c → a ∉ (s.article n).holders → t.channel a = s.channel a ∧ t.station a = s.station a
          ∧ t.copyMap a = s.copyMap a)
      ∧ (let h := (s.article n).holders
         s.op.overflow = false → s.op.fifo.length + h.length < 32 →
         t.op.fifo.take (s.op.fifo.length + h.length + 1) = s.op.fifo
           ++ h.map (fun a => { kind := .stationDetached, time := s.op.clock, subjects := [a, 2, n] })
           ++ [{ kind := .changeSettled, time := s.op.clock
                 subjects := [n, changeKindCode c.kind, c.oldRevision, (s.article n).revision, h.length,
                   (s.oldPins c).length, 2] }])

/-! ## Tickets -/

/-- NEW: its checks in order, and the OPEN ticket it puts into a free record, under the first free number after the last
assigned, as the clerk's active ticket. SWITCH: its checks, and the ticket it makes active (R117 to R120, R126). -/
def Obligations.TicketsOpenAndSwitch : Prop :=
  ∀ (s : State) (a : Nat), s.takes a →
    (s.clerkAt a = none → s.turnsAway (.newTicket a) a 10 .noClerk ∧ ∀ n, s.turnsAway (.switch a n) a 11 .noClerk)
    ∧ (∀ c, s.clerkAt a = some c → (s.station a).state = .proof →
        s.turnsAway (.newTicket a) a 10 .proofOnly ∧ ∀ n, s.turnsAway (.switch a n) a 11 .proofOnly)
    ∧ ∀ c, s.mans a c →
      let owned := (s.sc.tickets.filter (fun k => k.clerk == c && k.kind == .counter && openOrHeld k)).length
      let limit := if s.qc.level = .rush then 2 else 1
      (limit ≤ owned → s.turnsAway (.newTicket a) a 10 .limit)
      ∧ (owned < limit → 64 ≤ s.sc.tickets.length → s.turnsAway (.newTicket a) a 10 .tableFull)
      ∧ (owned < limit → s.sc.tickets.length < 64 →
          ∃ t i, i < 999 ∧ (∀ j, j < i → s.ticketOf ((s.sc.lastTicket + j) % 999 + 1) ≠ none)
            ∧ (let n := (s.sc.lastTicket + i) % 999 + 1
               exec (.newTicket a) s = .next t ∧ s.ticketOf n = none ∧ t.answered a 10 .ok (chars 2 n) ∧ s.took t a
               ∧ t.ticketOf n = some
                  { number := n, kind := .counter, queueNumber := none, clerk := c,
                    state := .opened (moment s.op.now s.idleTimeout), items := [], total := 0, openedAt := s.op.clock,
                    lastActivity := s.op.now, aSeen := false }
               ∧ (∀ m, m ≠ n → t.ticketOf m = s.ticketOf m) ∧ t.sc.lastTicket = n
               ∧ t.clerk c = { s.clerk c with active := some n } ∧ (∀ d, d ≠ c → t.clerk d = s.clerk d)
               ∧ ((s.clerk c).scale = some a → (t.channel a).ctx.activeTicket = some n)))
      ∧ ∀ n, (s.ticketOf n = none → s.turnsAway (.switch a n) a 11 .wrongState)
        ∧ ∀ k, s.ticketOf n = some k →
          (k.clerk ≠ c ∨ (∃ job, k.state = .printing job) → s.turnsAway (.switch a n) a 11 .wrongState)
          ∧ (k.clerk = c → (∃ m, k.state = .parked m) → limit ≤ owned → s.turnsAway (.switch a n) a 11 .limit)
          ∧ (k.clerk = c → (∀ job, k.state ≠ .printing job) → ((∃ m, k.state = .parked m) → owned < limit) →
              ∃ t u, exec (.switch a n) s = .next t ∧ s.took t a ∧ t.ticketOf n = some u
                ∧ t.answered a 11 .ok (chars 2 n ++ chars 1 (ticketStateCode u.state) ++ chars 4 k.total)
                ∧ (∀ m, m ≠ n → t.ticketOf m = s.ticketOf m) ∧ t.sc.lastTicket = s.sc.lastTicket
                ∧ t.clerk c = { s.clerk c with active := some n }
                ∧ (k.state = .held ∨ k.state = .printWait → u = k)
                ∧ ((∃ m, k.state = .opened m ∨ k.state = .parked m) →
                    u = { k with state := .opened (moment s.op.now s.idleTimeout), lastActivity := s.op.now }))

/-- R122: which stored verdicts allow an item, and the code that the others are refused with. -/
def Obligations.VerdictsAllowItems : Prop :=
  ∀ v : Verdict,
    let byPrice := v.priceState = .priced ∧ verdictRefused v = none
      ∨ v.priceState = .underMin ∧ verdictRefused v = some .underMin
      ∨ v.priceState = .priceOver ∧ verdictRefused v = some .priceOver
      ∨ (v.priceState = .noPrice ∨ v.priceState = .cancelled) ∧ verdictRefused v = some .noArticle
    (v.pin = none → verdictRefused v = some .noArticle)
    ∧ ∀ p, v.pin = some p → (p.mode ≠ .byWeight → byPrice)
      ∧ (p.mode = .byWeight →
          (v.weight = .filling ∨ v.weight = .fault ∨ v.weight = .motion → verdictRefused v = some .motion)
          ∧ (v.weight = .overload → verdictRefused v = some .overload)
          ∧ (v.weight = .underload → verdictRefused v = some .underMin)
          ∧ (v.weight = .stable → byPrice))

/-- ADD: its checks in order, and what an accepted item leaves: the ticket with the item, the article's reference count,
the pin released with an evaluation and the settle check (R97), the match counts, and the WATCH_MATCH notices (R121,
R123, R166 to R170), behind the notices of the addition itself (log entry 8). -/
def Obligations.AddPlacesItem : Prop :=
  ∀ (s : State) (a stamp : Nat), s.takes a →
    let act := Instr.add a stamp
    let ch := s.channel a
    (s.clerkAt a = none → s.turnsAway act a 12 .noClerk)
    ∧ ∀ c, s.clerkAt a = some c →
      (s.activeOf c = none → s.turnsAway act a 12 .wrongState)
      ∧ ∀ k, s.activeOf c = some k →
        (k.state = .held → s.turnsAway act a 12 .held)
        ∧ ((k.state = .printWait ∨ (∃ m, k.state = .parked m) ∨ ∃ job, k.state = .printing job) →
            s.turnsAway act a 12 .wrongState)
        ∧ ∀ m, k.state = .opened m →
          ((s.station a).state = .proof → s.turnsAway act a 12 .proofOnly)
          ∧ ((s.station a).state ≠ .proof →
            (stamp ≠ ch.stamp → s.turnsAway act a 12 .stale)
            ∧ (∀ code, stamp = ch.stamp → verdictRefused ch.verdict = some code → s.turnsAway act a 12 code)
            ∧ ∀ p, stamp = ch.stamp → verdictRefused ch.verdict = none → ch.ctx.pin = some p →
              let i := itemOf p ch.verdict a
              let w := watchResult s.wu .add p.number i.price k.clerk k.aSeen
              let counted : WatchUnit := { a := raiseCount s.wu.a w.a.isSome, b := raiseCount s.wu.b w.b.isSome }
              (24 ≤ k.items.length → s.turnsAway act a 12 .ticketFull)
              ∧ (k.items.length < 24 → w.outcome = some .block →
                ∃ t, exec act s = .next t ∧ t.answered a 12 .watched [] ∧ s.took t a ∧ t.wu = counted
                  ∧ Changes [.wu, .op, .lc] s t
                  ∧ t.op = (s.noteMatches w .add 1 a k.clerk k.number p.number i.price 0).op)
              ∧ (k.items.length < 24 → w.outcome ≠ some .block →
                ∃ t, exec act s = .next t ∧ s.took t a ∧ t.wu = counted ∧ t.tu = s.tu ∧ t.qc = s.qc
                  ∧ t.answered a 12 .ok (chars 2 k.number ++ chars 4 (k.total + i.price) ++ chars 1 (k.items.length + 1)
                      ++ chars 1 (if w.outcome = some .hold then 2 else 1))
                  ∧ t.sc = { s.sc with tickets := s.sc.tickets.map (fun x => if x.number = k.number then
                      { k with
                        items := k.items ++ [i]
                        total := k.total + i.price
                        aSeen := k.aSeen || (sequentialInForce s.wu && w.a.isSome)
                        state := if w.outcome = some .hold then .held else .opened (moment s.op.now s.idleTimeout)
                        lastActivity := if w.outcome = some .hold then k.lastActivity else s.op.now } else x) }
                  ∧ (t.article p.number).refs = (s.article p.number).refs + 1
                  ∧ t.channel a = judged (unpinned ch) (s.verdictOf a (unpinned ch)) ∧ ChannelOnly a s t
                  ∧ (let u := State.carryAdd ((s.markTaken a).countMatches w) a k i (decide (w.outcome = some .hold))
                      (sequentialInForce s.wu && w.a.isSome)
                    t.op = (u.noteMatches w .add (if w.outcome = some .hold then 2 else 3) a k.clerk k.number p.number i.price
                      (k.items.length + 1)).op
                    ∧ s.PinEnded t u.op a p.number
                        { (s.article p.number).withoutPin a with refs := (s.article p.number).refs + 1 })))

/-- VOID_ITEM: its checks in order, and what an accepted void leaves: the item VOIDED, the total lowered, an OPEN ticket
renewed and a HELD one left HELD, or HELD by a watch; the match counts; and the WATCH_MATCH notices (R124, R166 to
R170). That a NOTE on a ticket already HELD reports the outcome DONE is the model's reading (log entry 19). -/
def Obligations.VoidItemVoids : Prop :=
  ∀ (s : State) (a p : Nat), s.takes a →
    let act := Instr.voidItem a p
    (s.clerkAt a = none → s.turnsAway act a 14 .noClerk)
    ∧ ∀ c, s.clerkAt a = some c →
      ((∀ k, s.activeOf c = some k → openOrHeld k = false) → s.turnsAway act a 14 .wrongState)
      ∧ ∀ k, s.activeOf c = some k → openOrHeld k = true →
        ((s.station a).state = .proof → s.turnsAway act a 14 .proofOnly)
        ∧ ((s.station a).state ≠ .proof →
          (p = 0 ∨ k.items[p - 1]? = none → s.turnsAway act a 14 .badValue)
          ∧ ∀ i, 1 ≤ p → k.items[p - 1]? = some i →
            let w := watchResult s.wu .void i.article i.price k.clerk k.aSeen
            let counted : WatchUnit := { a := raiseCount s.wu.a w.a.isSome, b := raiseCount s.wu.b w.b.isSome }
            (i.voided = true → s.turnsAway act a 14 .badValue)
            ∧ (i.voided = false → w.outcome = some .block →
              ∃ t, exec act s = .next t ∧ t.answered a 14 .watched [] ∧ s.took t a ∧ t.wu = counted
                ∧ Changes [.wu, .op, .lc] s t ∧ t.op = (s.noteMatches w .void 1 a k.clerk k.number i.article i.price 0).op)
            ∧ (i.voided = false → w.outcome ≠ some .block →
              ∃ t u, exec act s = .next t ∧ s.took t a ∧ t.wu = counted ∧ Changes [.sc, .lc, .wu, .op] s t
                ∧ t.op = (s.noteMatches w .void (if w.outcome = some .hold then 2 else 3) a k.clerk k.number i.article
                    i.price p).op
                ∧ t.sc = { s.sc with tickets := s.sc.tickets.map (fun x => if x.number = k.number then u else x) }
                ∧ t.answered a 14 .ok (chars 2 k.number ++ chars 4 (k.total - i.price) ++ chars 1 (ticketStateCode u.state))
                ∧ u.items = k.items.take (p - 1) ++ { i with voided := true } :: k.items.drop p
                ∧ u.total = k.total - i.price ∧ u.number = k.number ∧ u.clerk = k.clerk
                ∧ u.aSeen = (k.aSeen || (sequentialInForce s.wu && w.a.isSome))
                ∧ (w.outcome = some .hold ∨ k.state = .held → u.state = .held ∧ u.lastActivity = k.lastActivity)
                ∧ (w.outcome ≠ some .hold → k.state ≠ .held →
                    u.state = .opened (moment s.op.now s.idleTimeout) ∧ u.lastActivity = s.op.now)))

/-- The watch matching of R167, the sequential mode of R168 and the outcomes of R169: which channels match an event, the
action each contributes, and the strongest of them. R170: a match raises its channel's count, not past 65,535, and
places one WATCH_MATCH with these subjects, channel A's before channel B's. -/
def Obligations.WatchesMatch : Prop :=
  (∀ (wu : WatchUnit) (ev : WatchEvent) (n price clerk : Nat) (aSeen : Bool),
    let covers (w : WatchChannel) : Prop :=
      w.enable = true ∧ (if ev = .void then w.onVoid = true else w.onAdd = true)
      ∧ (w.mask = .exact ∧ n = w.article ∨ w.mask = .group16 ∧ n / 16 = w.article / 16
          ∨ w.mask = .group256 ∧ n / 256 = w.article / 256 ∨ w.mask = .any)
      ∧ (w.clerk = 0 ∨ w.clerk = clerk) ∧ w.threshold ≤ price
    let sequential := wu.b.enable = true ∧ wu.b.sequential = true
    let contributes (x : WatchAction) : WatchAction := if ev = .label ∧ x = .hold then .note else x
    let r := watchResult wu ev n price clerk aSeen
    (¬ covers wu.a → r.a = none) ∧ (covers wu.a → sequential → r.a = some .note)
    ∧ (covers wu.a → ¬ sequential → r.a = some (contributes wu.a.action))
    ∧ (covers wu.b → (sequential → aSeen = true) → r.b = some (contributes wu.b.action))
    ∧ (¬ covers wu.b ∨ (sequential ∧ aSeen = false) → r.b = none)
    ∧ (r.a = none → r.b = none → r.outcome = none)
    ∧ (∀ x, r.a = some x → r.b = none → r.outcome = some x) ∧ (∀ x, r.a = none → r.b = some x → r.outcome = some x)
    ∧ (∀ x y, r.a = some x → r.b = some y → r.outcome = some (if watchActionCode x < watchActionCode y then y else x)))
  ∧ (∀ w : WatchChannel, raiseCount w true = { w with count := min 65535 (w.count + 1) } ∧ raiseCount w false = w)
  ∧ ∀ (s : State) (r : WatchResult) (ev : WatchEvent) (outcome scale clerk ticket n price position : Nat),
    let t := s.noteMatches r ev outcome scale clerk ticket n price position
    let subjects (channel : Nat) (x : WatchAction) : List Nat :=
      [channel, (match ev with | .add => 1 | .label => 2 | .void => 3), watchActionCode x, outcome, scale, clerk, ticket, n,
        price, position]
    (r.a = none → r.b = none → t = s)
    ∧ (∀ x, r.a = some x → r.b = none → t = s.raise .watchMatch (subjects 1 x))
    ∧ (∀ x, r.a = none → r.b = some x → t = s.raise .watchMatch (subjects 2 x))
    ∧ ∀ x y, r.a = some x → r.b = some y →
        t = (s.raise .watchMatch (subjects 1 x)).raise .watchMatch (subjects 2 y)

/-! ## Closing, labels and print jobs -/

/-- CLOSE: its checks in order; the empty close that removes the ticket; and the print job it starts otherwise, with the
TOTAL label offered and the ticket no longer active (R134 to R138, R140). -/
def Obligations.CloseStartsJob : Prop :=
  ∀ (s : State) (a : Nat), s.takes a →
    (s.clerkAt a = none → s.turnsAway (.close a) a 16 .noClerk)
    ∧ (∀ c, s.clerkAt a = some c → (s.station a).state = .proof → s.turnsAway (.close a) a 16 .proofOnly)
    ∧ ∀ c, s.mans a c →
      (s.activeOf c = none → s.turnsAway (.close a) a 16 .wrongState)
      ∧ ∀ k, s.activeOf c = some k →
        (k.state = .held → s.turnsAway (.close a) a 16 .held)
        ∧ (((∃ m, k.state = .parked m) ∨ ∃ job, k.state = .printing job) → s.turnsAway (.close a) a 16 .wrongState)
        ∧ ((k.state = .printWait ∨ ∃ m, k.state = .opened m) →
          let sold := k.items.filter (fun i => !i.voided)
          let tag := s.jobTag a
          (sold = [] → ∃ t, exec (.close a) s = .next t ∧ t.answered a 16 .ok (chars 2 k.number ++ chars 1 2)
            ∧ s.removed t k ∧ s.took t a ∧ t.tu = s.tu)
          ∧ (sold ≠ [] → ∃ t, exec (.close a) s = .next t ∧ s.took t a ∧ t.tu = s.tu ∧ t.art = s.art
            ∧ t.answered a 16 .ok (chars 2 k.number ++ chars 1 1 ++ chars 4 k.total ++ chars 1 tag)
            ∧ { msg := .print (.total tag k.number k.queueNumber k.clerk sold.length k.total s.op.clock s.liveBank.period),
                sent := false } ∈ (t.station a).queue
            ∧ t.sc.tickets = s.sc.tickets.map (fun x => if x.number = k.number then
                { k with state := .printing { scale := a, tag := tag,
                                              deadline := moment s.op.now (1000 * s.op.settings.printTimeout) } } else x)
            ∧ (t.clerk k.clerk).active = none
            ∧ t.printRecord a = { s.printRecord a with nextTag := (tag + 1) % 256 }))

/-- R135: the job tag of a scale is the first value, counting up from its next job tag and wrapping from 255 to 0, that
is neither the job tag of a PRINTING ticket of the scale nor its last proof tag. -/
def Obligations.JobTagsAreFree : Prop :=
  ∀ (s : State) (a : Nat), s.sc.tickets.length ≤ 64 →
    ∃ i, i < 256 ∧ s.jobTag a = ((s.printRecord a).nextTag + i) % 256
      ∧ (∀ j, j < i → (s.printRecord a).lastProof = some (((s.printRecord a).nextTag + j) % 256)
          ∨ ∃ k ∈ s.sc.tickets, ∃ m, k.state =
              .printing { scale := a, tag := ((s.printRecord a).nextTag + j) % 256, deadline := m })
      ∧ (s.printRecord a).lastProof ≠ some (s.jobTag a)
      ∧ ∀ k ∈ s.sc.tickets, ∀ m, k.state ≠ .printing { scale := a, tag := s.jobTag a, deadline := m }

/-- LABEL: its checks in order; the DIRECT ticket in PRINTING with its one item at a scale in NORMAL or DETACHED; and
the proof label, without a ticket, at a scale in PROOF; the pin released with the settle check (R97); the match counts
and the WATCH_MATCH notices (R145, R146, R166 to R170), behind the notices of the label itself (log entry 8). -/
def Obligations.LabelPrints : Prop :=
  ∀ (s : State) (a stamp : Nat), s.takes a →
    let act := Instr.label a stamp
    let ch := s.channel a
    let tag := s.jobTag a
    (s.clerkAt a = none → s.turnsAway act a 13 .noClerk)
    ∧ ∀ c, s.clerkAt a = some c →
      (stamp ≠ ch.stamp → s.turnsAway act a 13 .stale)
      ∧ (∀ code, stamp = ch.stamp → verdictRefused ch.verdict = some code → s.turnsAway act a 13 code)
      ∧ ∀ p, stamp = ch.stamp → verdictRefused ch.verdict = none → ch.ctx.pin = some p →
        let i := itemOf p ch.verdict a
        let w := watchResult s.wu .label p.number i.price c false
        let counted : WatchUnit := { a := raiseCount s.wu.a w.a.isSome, b := raiseCount s.wu.b w.b.isSome }
        let label (n : Nat) (proof : Bool) : DownMsg :=
          .print (.item tag proof n i.mode (labelAmount i) i.tare i.unit i.price s.op.clock p.content.name)
        ((s.station a).state = .proof → ∃ t, exec act s = .next t ∧ s.took t a
            ∧ t.answered a 13 .ok (chars 2 0 ++ chars 3 i.price ++ chars 1 tag)
            ∧ { msg := label 0 true, sent := false } ∈ (t.station a).queue
            ∧ t.printRecord a = { s.printRecord a with nextTag := (tag + 1) % 256, lastProof := some tag }
            ∧ t.sc.tickets = s.sc.tickets ∧ t.wu = s.wu
            ∧ t.channel a = judged (unpinned ch) (s.verdictOf a (unpinned ch))
            ∧ s.PinEnded t t.op a p.number ((s.article p.number).withoutPin a))
        ∧ ((s.station a).state ≠ .proof →
          (64 ≤ s.sc.tickets.length → s.turnsAway act a 13 .tableFull)
          ∧ (s.sc.tickets.length < 64 → w.outcome = some .block →
              ∃ t, exec act s = .next t ∧ t.answered a 13 .watched [] ∧ s.took t a ∧ Changes [.wu, .op, .lc] s t
                ∧ t.wu = counted ∧ t.op = (s.noteMatches w .label 1 a c 0 p.number i.price 0).op)
          ∧ (s.sc.tickets.length < 64 → w.outcome ≠ some .block →
              ∃ t n, exec act s = .next t ∧ n = s.freshTicketNumber ∧ s.ticketOf n = none ∧ s.took t a
                ∧ t.answered a 13 .ok (chars 2 n ++ chars 3 i.price ++ chars 1 tag)
                ∧ { msg := label n false, sent := false } ∈ (t.station a).queue
                ∧ t.ticketOf n = some
                  { number := n, kind := .direct, queueNumber := none, clerk := c,
                    state := .printing { scale := a, tag := tag,
                                         deadline := moment s.op.now (1000 * s.op.settings.printTimeout) },
                    items := [i], total := i.price, openedAt := s.op.clock, lastActivity := s.op.now,
                    aSeen := sequentialInForce s.wu && w.a.isSome }
                ∧ (∀ m, m ≠ n → t.ticketOf m = s.ticketOf m) ∧ (∀ d, t.clerk d = s.clerk d)
                ∧ t.printRecord a = { s.printRecord a with nextTag := (tag + 1) % 256 }
                ∧ (t.article p.number).refs = (s.article p.number).refs + 1
                ∧ t.channel a = judged (unpinned ch) (s.verdictOf a (unpinned ch)) ∧ t.wu = counted
                ∧ (let u := State.carryLabel ((s.markTaken a).countMatches w) a c p i
                    (sequentialInForce s.wu && w.a.isSome)
                  t.op = (u.noteMatches w .label 3 a c n p.number i.price 1).op
                  ∧ s.PinEnded t u.op a p.number
                      { (s.article p.number).withoutPin a with refs := (s.article p.number).refs + 1 })))

/-- PRINTED OK posts and removes the PRINTING ticket of the scale and the tag; FAILED, and the print deadline, leave it
PRINT_WAIT with PRINT_FAILED, the deadline after withdrawing an unsent PRINT of the job; one that matches no ticket is
the proof outcome or a stray (R141 to R143, R175). That the deadline's row brings the time base to it is the model's
choice (log entry 1). -/
def Obligations.PrintJobsEnd : Prop :=
  (∀ (s : State) (a tag : Nat), s.hears a →
    (∀ k, s.jobOf a tag = some k →
      (∃ t, exec (.printed a tag true) s = .next t ∧ s.removed t k ∧ t.tu = (s.post k a).tu ∧ t.op = (s.post k a).op
        ∧ s.took t a)
      ∧ exec (.printed a tag false) s = .next
          ((State.setTickets (s.markTaken a) (s.sc.tickets.map (fun x =>
            if x.number = k.number then { k with state := .printWait } else x))).raise .printFailed
              [k.number, k.clerk, a, tag, 1]))
    ∧ (s.jobOf a tag = none →
      ((s.printRecord a).lastProof = some tag → ∀ ok, exec (.printed a tag ok) s = .next
          ((s.markTaken a).setPrintRecord a { s.printRecord a with lastProof := none }))
      ∧ ((s.printRecord a).lastProof ≠ some tag → ∀ ok, exec (.printed a tag ok) s = .next
          ((s.markTaken a).setPrintRecord a
            { s.printRecord a with strays := min 65535 ((s.printRecord a).strays + 1) }))))
  ∧ (∀ (s : State) (n : Nat) (k : Ticket) (job : PrintJob), s.op.resetLow = false → s.ticketOf n = some k →
      k.state = .printing job →
      ∃ t, exec (.printDeadlineExpiry n) s = .next t ∧ StationOnly job.scale s t
        ∧ t.sc = { s.sc with tickets := s.sc.tickets.map (fun x =>
            if x.number = n then { k with state := .printWait } else x) }
        ∧ t.op = (State.raise (s.setNow (max s.op.now job.deadline)) .printFailed
            [n, k.clerk, job.scale, job.tag, 2]).op
        ∧ Changes [.lc, .sc, .op] s t
        ∧ (let st := s.station job.scale
           ((∀ e ∈ st.queue, unsent (isPrintOf job.tag) e = false) → t.station job.scale = st)
           ∧ ∀ l e r, st.queue = l ++ e :: r → unsent (isPrintOf job.tag) e = true →
               (∀ x ∈ l, unsent (isPrintOf job.tag) x = false) → st.backlog = .articles [] → st.showOwed = false →
               t.station job.scale = { st with queue := l ++ r }))

/-! ## The queue -/

/-- TAKE issues the first free number counting up from the next number, or answers FULL with QUEUE_FULL; QUE.RESET
empties the waiting queue and sets the next number (R150, R151, R161). Where the waiting count changed, the rush condition
is examined, the level changed with the OPEN tickets recomputed, and one CALLOUT offered (R18, R153, R157, R158). A CALLOUT
for a full queue, in states no run reaches, is dropped by the model's choice (log entry 12). -/
def Obligations.QueueIssuesNumbers : Prop :=
  (∀ s : State, s.inService 17 = true → s.op.resetLow = false → s.admits 17 = true →
    let free (q : Nat) : Prop := q ∉ s.qc.waiting ∧ ∀ k ∈ s.sc.tickets, k.queueNumber ≠ some q
    (64 ≤ s.qc.waiting.length → exec .take s = .next
      ((State.raise (s.markTaken 17) .queueFull [s.qc.waiting.length, 1]).reply 17 21 .full []))
    ∧ (s.qc.waiting.length < 64 → (∀ q, q < 100 → ¬ free q) → exec .take s = .next
      ((State.raise (s.markTaken 17) .queueFull [s.qc.waiting.length, 2]).reply 17 21 .full []))
    ∧ ∀ i, s.qc.waiting.length < 64 → i < 100 → free ((s.qc.nextNumber + i) % 100) →
        (∀ j, j < i → ¬ free ((s.qc.nextNumber + j) % 100)) →
        ∃ t, exec .take s = .next t ∧ t.answered 17 21 .ok (chars 1 ((s.qc.nextNumber + i) % 100))
          ∧ t.qc.waiting = s.qc.waiting ++ [(s.qc.nextNumber + i) % 100]
          ∧ t.qc.nextNumber = ((s.qc.nextNumber + i) % 100 + 1) % 100 ∧ t.qc.serving = s.qc.serving
          ∧ (s.numbersSound → s.Examined t (s.qc.waiting.length + 1) s.ticketOf s.clerk) ∧ s.CalloutOffered t)
  ∧ (∀ s : State, s.CalloutOffered s.offerCallout)
  ∧ ∀ (s : State) (n : Nat), s.op.resetLow = false → n < 256 →
      (99 < n → exec (.queReset (chars 1 n)) s = .next (s.responded 81 .badArg false [] 4))
      ∧ (n ≤ 99 → ∃ t, exec (.queReset (chars 1 n)) s = .next t ∧ t.qc.waiting = [] ∧ t.qc.nextNumber = n
          ∧ t.qc.serving = s.qc.serving
          ∧ t.op.response = some { code := 81, result := .ok, clamped := false, body := [] }
          ∧ (s.qc.waiting = [] → t.op.sameNotices s.op ∧ Changes [.qc, .op] s t)
          ∧ (s.qc.waiting ≠ [] → (s.numbersSound → s.Examined t 0 s.ticketOf s.clerk) ∧ s.CalloutOffered t))

/-- NEXT: its checks in order, those of NEW first; the oldest number leaves the queue, a ticket of the clerk opens with
it and it stands at the front of the now-serving list (R152, R154); the rush condition is then examined, over the tickets
with the new one among them, and one CALLOUT offered (R18, R153, R157, R158; for a full queue, which no run reaches, log
entry 12). -/
def Obligations.NextCallsOldest : Prop :=
  ∀ (s : State) (a : Nat), s.takes a →
    (s.clerkAt a = none → s.turnsAway (.next a) a 18 .noClerk)
    ∧ (∀ c, s.clerkAt a = some c → (s.station a).state = .proof → s.turnsAway (.next a) a 18 .proofOnly)
    ∧ ∀ c, s.mans a c →
      (s.atLimit c = true → s.turnsAway (.next a) a 18 .limit)
      ∧ (s.atLimit c = false → 64 ≤ s.sc.tickets.length → s.turnsAway (.next a) a 18 .tableFull)
      ∧ (s.atLimit c = false → s.sc.tickets.length < 64 → s.qc.waiting = [] → s.turnsAway (.next a) a 18 .emptyQueue)
      ∧ ∀ q rest, s.atLimit c = false → s.sc.tickets.length < 64 → s.qc.waiting = q :: rest →
          let n := s.freshTicketNumber
          ∃ t k, exec (.next a) s = .next t ∧ t.answered a 18 .ok (chars 2 n ++ chars 1 q)
            ∧ t.qc.waiting = rest ∧ t.qc.nextNumber = s.qc.nextNumber
            ∧ t.qc.serving = ((q, a) :: s.qc.serving.filter (fun e => e.1 != q)).take 4
            ∧ s.ticketOf n = none ∧ t.ticketOf n = some k ∧ k.kind = .counter ∧ k.queueNumber = some q
            ∧ k.clerk = c ∧ k.items = [] ∧ k.total = 0 ∧ k.openedAt = s.op.clock ∧ k.lastActivity = s.op.now
            ∧ t.sc.lastTicket = n
            ∧ (s.qc.level = .normal → rest.length < s.op.settings.rushThreshold →
                k.state = .opened (moment s.op.now s.idleTimeout) ∧ (t.clerk c).active = some n)
            ∧ (s.numbersSound →
                s.Examined t rest.length
                  (fun m => if m = n then
                      some { number := n, kind := .counter, queueNumber := some q, clerk := c,
                             state := .opened (moment s.op.now s.idleTimeout), items := [], total := 0,
                             openedAt := s.op.clock, lastActivity := s.op.now, aSeen := false }
                    else s.ticketOf m)
                  (fun d => if d = c then { s.clerk c with active := some n } else s.clerk d))
            ∧ s.CalloutOffered t

/-- R155: RECALL places the entry of the active ticket's number and this scale at the front of the now-serving list,
offers a CALLOUT and answers the number; it changes no field of the ticket, and a refused RECALL changes nothing. -/
def Obligations.RecallShowsNumber : Prop :=
  ∀ (s : State) (a : Nat), s.takes a →
    (s.clerkAt a = none → s.turnsAway (.recallNumber a) a 19 .noClerk)
    ∧ (∀ c, s.clerkAt a = some c → (s.station a).state = .proof → s.turnsAway (.recallNumber a) a 19 .proofOnly)
    ∧ (∀ c, s.mans a c → (∀ k, s.activeOf c = some k → k.queueNumber = none) →
        s.turnsAway (.recallNumber a) a 19 .wrongState)
    ∧ ∀ c k q, s.mans a c → s.activeOf c = some k → k.queueNumber = some q →
        ∃ u, u = ({ s.markTaken a with qc :=
              { s.qc with serving := ((q, a) :: s.qc.serving.filter (fun e => e.1 != q)).take 4 } } : State)
          ∧ exec (.recallNumber a) s = .next (u.offerCallout.reply a 19 .ok (chars 1 q))

/-! ## Deadlines -/

/-- The idle deadline parks an OPEN ticket with its expiry deadline and it is active no longer; the residency deadline
examines the rush condition once and changes the level where it holds, with every OPEN ticket's idle deadline recomputed
or the ticket parked, the notice of the change and a CALLOUT (R18, R126, R153, R157, R158).
The model's choices: the row of a deadline brings the time base to it (log entry 1), a CALLOUT for a full queue, in states
no run reaches, is dropped (log entry 12), and the residency deadline expires once for each entry of a level (log entry
13). -/
def Obligations.DeadlinesExpire : Prop :=
  (∀ (s : State) (n m : Nat) (k : Ticket), s.op.resetLow = false → s.ticketOf n = some k → k.state = .opened m →
    ∃ t, exec (.idleDeadlineExpiry n) s = .next t ∧ t.op = { s.op with now := max s.op.now m }
      ∧ t.sc.tickets = s.sc.tickets.map (fun x => if x.number = n then
          { k with state := .parked (moment (max s.op.now m) (1000 * s.op.settings.parkExpiry)) } else x)
      ∧ ((s.clerk k.clerk).active = some n → (t.clerk k.clerk).active = none)
      ∧ (∀ c, c ≠ k.clerk → t.clerk c = s.clerk c) ∧ t.lc = s.lc ∧ Changes [.sc, .we, .op] s t)
  ∧ ∀ s : State, s.op.resetLow = false → s.qc.residencyPending = true →
      let now := max s.op.now s.qc.residency
      let other : RushLevel := if s.qc.level = .normal then .rush else .normal
      let holds := (s.qc.level = .normal ∧ s.op.settings.rushThreshold ≤ s.qc.waiting.length)
        ∨ (s.qc.level = .rush ∧ s.qc.waiting.length ≤ s.op.settings.calmThreshold)
      (¬ holds → exec .residencyExpiry s = .next
        { s with qc := { s.qc with residencyPending := false }, op := { s.op with now := now } })
      ∧ (holds → ∃ t, exec .residencyExpiry s = .next t ∧ t.qc.level = other ∧ t.qc.entered = now
          ∧ t.qc.residency = moment now (1000 * (if other = .rush then s.op.settings.residencyRush
              else s.op.settings.residencyNormal))
          ∧ t.qc.residencyPending = true ∧ t.qc.waiting = s.qc.waiting ∧ t.qc.serving = s.qc.serving
          ∧ t.op = (State.raise (s.setNow now) (if other = .rush then .rushOn else .rushOff)
              [levelCode other, s.qc.waiting.length]).op
          ∧ (s.numbersSound → s.LevelTurned t now s.qc.waiting.length s.ticketOf s.clerk) ∧ s.CalloutOffered t)
end

