-- ==== Sys2Proof/Laws/Table.lean ====
section
/-! SUPPORT. The laws of keyed tables: reading after a write, the canonical form, sums of a measure, and ordered sets. -/

namespace Sys2Proof.Machine

variable {α : Type}

@[simp] theorem Tbl.read_nil (d : α) (k : Nat) : Tbl.read d [] k = d := rfl

theorem Tbl.read_drop_same (d : α) (t : Tbl α) (k : Nat) : Tbl.read d (Tbl.drop t k) k = d := by
  induction t with
  | nil => rfl
  | cons e rest ih =>
    obtain ⟨j, v⟩ := e
    by_cases h : j = k
    · simp [Tbl.drop, h, ih]
    · simp [Tbl.drop, h, Tbl.read, ih]

theorem Tbl.read_drop_ne (d : α) (t : Tbl α) {k m : Nat} (h : m ≠ k) :
    Tbl.read d (Tbl.drop t k) m = Tbl.read d t m := by
  induction t with
  | nil => rfl
  | cons e rest ih =>
    obtain ⟨j, v⟩ := e
    by_cases hj : j = k
    · have hm : ¬ j = m := by omega
      simp [Tbl.drop, hj, ih, Tbl.read, hj ▸ hm]
    · simp [Tbl.drop, hj, Tbl.read, ih]

theorem Tbl.read_place_same (d : α) (t : Tbl α) (k : Nat) (v : α) (h : Tbl.read d t k = d) (hk : ∀ e ∈ t, e.1 ≠ k) :
    Tbl.read d (Tbl.place t k v) k = v := by
  induction t with
  | nil => simp [Tbl.place, Tbl.read]
  | cons e rest ih =>
    obtain ⟨j, w⟩ := e
    have hj : ¬ j = k := hk (j, w) (by simp)
    by_cases hlt : k < j
    · simp [Tbl.place, hlt, Tbl.read]
    · simp [Tbl.place, hlt, Tbl.read, hj]
      apply ih
      · simpa [Tbl.read, hj] using h
      · intro e he; exact hk e (by simp [he])

theorem Tbl.read_place_ne (d : α) (t : Tbl α) {k m : Nat} (v : α) (h : m ≠ k) :
    Tbl.read d (Tbl.place t k v) m = Tbl.read d t m := by
  have hkm : ¬ k = m := fun e => h e.symm
  induction t with
  | nil => simp [Tbl.place, Tbl.read, hkm]
  | cons e rest ih =>
    obtain ⟨j, w⟩ := e
    by_cases hlt : k < j
    · simp [Tbl.place, hlt, Tbl.read, hkm]
    · simp [Tbl.place, hlt, Tbl.read, ih]

theorem Tbl.keys_drop (t : Tbl α) (k : Nat) : ∀ e ∈ Tbl.drop t k, e.1 ≠ k ∧ e ∈ t := by
  induction t with
  | nil => intro e he; simp [Tbl.drop] at he
  | cons x rest ih =>
    obtain ⟨j, v⟩ := x
    intro e he
    by_cases hj : j = k
    · simp only [Tbl.drop, hj, if_true] at he
      exact ⟨(ih e he).1, List.mem_cons_of_mem _ (ih e he).2⟩
    · simp only [Tbl.drop, hj, if_false, List.mem_cons] at he
      rcases he with rfl | he
      · exact ⟨hj, by simp⟩
      · exact ⟨(ih e he).1, List.mem_cons_of_mem _ (ih e he).2⟩

@[simp] theorem Tbl.read_write_same [DecidableEq α] (d : α) (t : Tbl α) (k : Nat) (v : α) :
    Tbl.read d (Tbl.write d t k v) k = v := by
  unfold Tbl.write
  by_cases h : v = d
  · simp [h, Tbl.read_drop_same]
  · simp only [h, if_false]
    exact Tbl.read_place_same d _ k v (Tbl.read_drop_same d t k) (fun e he => (Tbl.keys_drop t k e he).1)

theorem Tbl.read_write_ne [DecidableEq α] (d : α) (t : Tbl α) {k m : Nat} (v : α) (h : m ≠ k) :
    Tbl.read d (Tbl.write d t k v) m = Tbl.read d t m := by
  unfold Tbl.write
  by_cases hv : v = d
  · simp [hv, Tbl.read_drop_ne d t h]
  · simp [hv, Tbl.read_place_ne d _ v h, Tbl.read_drop_ne d t h]

theorem Tbl.read_write [DecidableEq α] (d : α) (t : Tbl α) (k m : Nat) (v : α) :
    Tbl.read d (Tbl.write d t k v) m = if m = k then v else Tbl.read d t m := by
  by_cases h : m = k
  · subst h; simp
  · simp [h, Tbl.read_write_ne d t v h]

theorem Tbl.mem_place (t : Tbl α) (k : Nat) (v : α) : ∀ e ∈ Tbl.place t k v, e = (k, v) ∨ e ∈ t := by
  induction t with
  | nil => intro e he; simp [Tbl.place] at he; exact Or.inl he
  | cons x rest ih =>
    obtain ⟨j, w⟩ := x
    intro e he
    by_cases hlt : k < j
    · simp only [Tbl.place, hlt, if_true, List.mem_cons] at he
      rcases he with rfl | he
      · exact Or.inl rfl
      · exact Or.inr (by simpa using he)
    · simp only [Tbl.place, hlt, if_false, List.mem_cons] at he
      rcases he with rfl | he
      · exact Or.inr (by simp)
      · rcases ih e he with h | h
        · exact Or.inl h
        · exact Or.inr (List.mem_cons_of_mem _ h)

theorem Tbl.sublist_drop (t : Tbl α) (k : Nat) : (Tbl.drop t k).Sublist t := by
  induction t with
  | nil => exact List.Sublist.slnil
  | cons x rest ih =>
    obtain ⟨j, v⟩ := x
    by_cases h : j = k
    · simp only [Tbl.drop, h, if_true]; exact ih.cons _
    · simp only [Tbl.drop, h, if_false]; exact ih.cons_cons _

theorem Tbl.sorted_place (t : Tbl α) (k : Nat) (v : α) (hs : t.Pairwise (fun x y => x.1 < y.1))
    (hk : ∀ e ∈ t, e.1 ≠ k) : (Tbl.place t k v).Pairwise (fun x y => x.1 < y.1) := by
  induction t with
  | nil => simp [Tbl.place]
  | cons x rest ih =>
    obtain ⟨j, w⟩ := x
    rw [List.pairwise_cons] at hs
    by_cases hlt : k < j
    · simp only [Tbl.place, hlt, if_true, List.pairwise_cons]
      refine ⟨?_, hs.1, hs.2⟩
      intro e he
      rcases List.mem_cons.mp he with rfl | he
      · exact hlt
      · exact lt_trans hlt (hs.1 e he)
    · simp only [Tbl.place, hlt, if_false, List.pairwise_cons]
      refine ⟨?_, ih hs.2 (fun e he => hk e (List.mem_cons_of_mem _ he))⟩
      intro e he
      have hjk : j < k := by
        have h2 : j ≠ k := hk (j, w) (by simp)
        omega
      rcases Tbl.mem_place rest k v e he with rfl | he
      · exact hjk
      · exact hs.1 e he

/-- A write keeps the canonical form. -/
theorem Tbl.wf_write [DecidableEq α] (d : α) (t : Tbl α) (k : Nat) (v : α) (h : Tbl.wf d t) :
    Tbl.wf d (Tbl.write d t k v) := by
  have hsub := Tbl.sublist_drop t k
  have hdrop : Tbl.wf d (Tbl.drop t k) := ⟨h.1.sublist hsub, fun e he => h.2 e (hsub.subset he)⟩
  unfold Tbl.write
  by_cases hv : v = d
  · simpa [hv] using hdrop
  · simp only [hv, if_false]
    refine ⟨Tbl.sorted_place _ k v hdrop.1 (fun e he => (Tbl.keys_drop t k e he).1), ?_⟩
    intro e he
    rcases Tbl.mem_place _ k v e he with rfl | he
    · exact hv
    · exact hdrop.2 e he

theorem Tbl.wf_nil (d : α) : Tbl.wf d ([] : Tbl α) := ⟨List.Pairwise.nil, by simp⟩

theorem Tbl.total_place (f : α → Nat) (t : Tbl α) (k : Nat) (v : α) :
    Tbl.total f (Tbl.place t k v) = f v + Tbl.total f t := by
  induction t with
  | nil => simp [Tbl.place, Tbl.total]
  | cons x rest ih =>
    obtain ⟨j, w⟩ := x
    by_cases hlt : k < j
    · simp [Tbl.place, hlt, Tbl.total]
    · simp only [Tbl.total] at ih
      simp [Tbl.place, hlt, Tbl.total, ih]
      omega

theorem Tbl.drop_of_absent (t : Tbl α) (k : Nat) (h : ∀ e ∈ t, e.1 ≠ k) :
    Tbl.drop t k = t := by
  induction t with
  | nil => rfl
  | cons x rest ih =>
    obtain ⟨j, w⟩ := x
    have hj : ¬ j = k := h (j, w) (by simp)
    simp [Tbl.drop, hj, ih (fun e he => h e (List.mem_cons_of_mem _ he))]

theorem Tbl.read_of_absent (d : α) (t : Tbl α) (k : Nat) (h : ∀ e ∈ t, e.1 ≠ k) : Tbl.read d t k = d := by
  induction t with
  | nil => rfl
  | cons x rest ih =>
    obtain ⟨j, w⟩ := x
    have hj : ¬ j = k := h (j, w) (by simp)
    simp [Tbl.read, hj, ih (fun e he => h e (List.mem_cons_of_mem _ he))]

/-- What a key adds to the sum of a measure that is 0 on the record of unlisted keys. -/
theorem Tbl.total_drop (f : α → Nat) (d : α) (hd : f d = 0) (t : Tbl α) (hs : t.Pairwise (fun x y => x.1 < y.1))
    (k : Nat) : Tbl.total f t = f (Tbl.read d t k) + Tbl.total f (Tbl.drop t k) := by
  induction t with
  | nil => simp [Tbl.total, Tbl.drop, hd]
  | cons x rest ih =>
    obtain ⟨j, w⟩ := x
    rw [List.pairwise_cons] at hs
    by_cases hj : j = k
    · have habs : ∀ e ∈ rest, e.1 ≠ k := by
        intro e he
        have := hs.1 e he
        simp only at this
        omega
      simp [Tbl.drop, hj, Tbl.read, Tbl.total, Tbl.drop_of_absent rest k habs]
    · have := ih hs.2
      simp only [Tbl.total] at this
      simp [Tbl.drop, hj, Tbl.read, Tbl.total, this]
      omega

/-- The sum of a measure after a write. -/
theorem Tbl.total_write [DecidableEq α] (f : α → Nat) (d : α) (hd : f d = 0) (t : Tbl α)
    (hs : t.Pairwise (fun x y => x.1 < y.1)) (k : Nat) (v : α) :
    Tbl.total f (Tbl.write d t k v) + f (Tbl.read d t k) = Tbl.total f t + f v := by
  have hdrop := Tbl.total_drop f d hd t hs k
  unfold Tbl.write
  by_cases hv : v = d
  · simp [hv, hd]; omega
  · simp only [hv, if_false, Tbl.total_place]; omega

theorem mem_setInsert (x y : Nat) (l : List Nat) : y ∈ setInsert x l ↔ y = x ∨ y ∈ l := by
  induction l with
  | nil => simp [setInsert]
  | cons z rest ih =>
    unfold setInsert
    split
    · simp
    · split
      · rename_i h
        subst h
        simp
      · simp only [List.mem_cons, ih]; tauto

theorem mem_rising (y : Nat) (l : List Nat) : y ∈ rising l ↔ y ∈ l := by
  induction l with
  | nil => simp [rising]
  | cons x rest ih =>
    have : rising (x :: rest) = setInsert x (rising rest) := rfl
    rw [this, mem_setInsert, ih]; simp

/-! ## A key written twice -/

theorem Tbl.drop_place (t : Tbl α) (k : Nat) (v : α) : Tbl.drop (Tbl.place t k v) k = Tbl.drop t k := by
  induction t with
  | nil => simp [Tbl.place, Tbl.drop]
  | cons e rest ih =>
    obtain ⟨j, w⟩ := e
    unfold Tbl.place
    split
    · simp [Tbl.drop]
    · by_cases h : j = k <;> simp [Tbl.drop, h, ih]

theorem Tbl.drop_drop (t : Tbl α) (k : Nat) : Tbl.drop (Tbl.drop t k) k = Tbl.drop t k := by
  induction t with
  | nil => rfl
  | cons e rest ih =>
    obtain ⟨j, w⟩ := e
    by_cases h : j = k <;> simp [Tbl.drop, h, ih]

/-- Of two writes at one key the later stands. -/
theorem Tbl.write_write [DecidableEq α] (d : α) (t : Tbl α) (k : Nat) (v w : α) :
    Tbl.write d (Tbl.write d t k v) k w = Tbl.write d t k w := by
  have h : Tbl.drop (Tbl.write d t k v) k = Tbl.drop t k := by
    unfold Tbl.write
    split
    · exact Tbl.drop_drop t k
    · rw [Tbl.drop_place, Tbl.drop_drop]
  unfold Tbl.write at h ⊢
  rw [h]

end Sys2Proof.Machine
end

