-- ==== Sys2Proof/Laws/State.lean ====
section
/-! SUPPORT. The record updates of the state: one lemma for each block that an update leaves alone, and what is read
after a write. -/

namespace Sys2Proof.Machine

variable (s : State)

@[simp] theorem State.setStation_we (a : Nat) (r : Station) : (s.setStation a r).we = s.we := rfl
@[simp] theorem State.setStation_art (a : Nat) (r : Station) : (s.setStation a r).art = s.art := rfl
@[simp] theorem State.setStation_cd (a : Nat) (r : Station) : (s.setStation a r).cd = s.cd := rfl
@[simp] theorem State.setStation_sc (a : Nat) (r : Station) : (s.setStation a r).sc = s.sc := rfl
@[simp] theorem State.setStation_qc (a : Nat) (r : Station) : (s.setStation a r).qc = s.qc := rfl
@[simp] theorem State.setStation_wu (a : Nat) (r : Station) : (s.setStation a r).wu = s.wu := rfl
@[simp] theorem State.setStation_tu (a : Nat) (r : Station) : (s.setStation a r).tu = s.tu := rfl
@[simp] theorem State.setStation_op (a : Nat) (r : Station) : (s.setStation a r).op = s.op := rfl
@[simp] theorem State.setStation_freeCount (a : Nat) (r : Station) : (s.setStation a r).freeCount = s.freeCount := rfl
@[simp] theorem State.setStation_pending (a : Nat) (r : Station) : (s.setStation a r).pending = s.pending := rfl

@[simp] theorem State.setChannel_lc (a : Nat) (r : Channel) : (s.setChannel a r).lc = s.lc := rfl
@[simp] theorem State.setChannel_art (a : Nat) (r : Channel) : (s.setChannel a r).art = s.art := rfl
@[simp] theorem State.setChannel_cd (a : Nat) (r : Channel) : (s.setChannel a r).cd = s.cd := rfl
@[simp] theorem State.setChannel_sc (a : Nat) (r : Channel) : (s.setChannel a r).sc = s.sc := rfl
@[simp] theorem State.setChannel_qc (a : Nat) (r : Channel) : (s.setChannel a r).qc = s.qc := rfl
@[simp] theorem State.setChannel_wu (a : Nat) (r : Channel) : (s.setChannel a r).wu = s.wu := rfl
@[simp] theorem State.setChannel_tu (a : Nat) (r : Channel) : (s.setChannel a r).tu = s.tu := rfl
@[simp] theorem State.setChannel_op (a : Nat) (r : Channel) : (s.setChannel a r).op = s.op := rfl
@[simp] theorem State.setChannel_freeCount (a : Nat) (r : Channel) : (s.setChannel a r).freeCount = s.freeCount := rfl
@[simp] theorem State.setChannel_pending (a : Nat) (r : Channel) : (s.setChannel a r).pending = s.pending := rfl

@[simp] theorem State.setArticle_lc (n : Nat) (r : Article) : (s.setArticle n r).lc = s.lc := rfl
@[simp] theorem State.setArticle_we (n : Nat) (r : Article) : (s.setArticle n r).we = s.we := rfl
@[simp] theorem State.setArticle_cd (n : Nat) (r : Article) : (s.setArticle n r).cd = s.cd := rfl
@[simp] theorem State.setArticle_sc (n : Nat) (r : Article) : (s.setArticle n r).sc = s.sc := rfl
@[simp] theorem State.setArticle_qc (n : Nat) (r : Article) : (s.setArticle n r).qc = s.qc := rfl
@[simp] theorem State.setArticle_wu (n : Nat) (r : Article) : (s.setArticle n r).wu = s.wu := rfl
@[simp] theorem State.setArticle_tu (n : Nat) (r : Article) : (s.setArticle n r).tu = s.tu := rfl
@[simp] theorem State.setArticle_op (n : Nat) (r : Article) : (s.setArticle n r).op = s.op := rfl
@[simp] theorem State.setArticle_freeCount (n : Nat) (r : Article) : (s.setArticle n r).freeCount = s.freeCount := rfl
@[simp] theorem State.setArticle_pending (n : Nat) (r : Article) : (s.setArticle n r).pending = s.pending := rfl

@[simp] theorem State.setCopyMap_lc (a : Nat) (m : List CopyEntry) : (s.setCopyMap a m).lc = s.lc := rfl
@[simp] theorem State.setCopyMap_we (a : Nat) (m : List CopyEntry) : (s.setCopyMap a m).we = s.we := rfl
@[simp] theorem State.setCopyMap_art (a : Nat) (m : List CopyEntry) : (s.setCopyMap a m).art = s.art := rfl
@[simp] theorem State.setCopyMap_sc (a : Nat) (m : List CopyEntry) : (s.setCopyMap a m).sc = s.sc := rfl
@[simp] theorem State.setCopyMap_qc (a : Nat) (m : List CopyEntry) : (s.setCopyMap a m).qc = s.qc := rfl
@[simp] theorem State.setCopyMap_wu (a : Nat) (m : List CopyEntry) : (s.setCopyMap a m).wu = s.wu := rfl
@[simp] theorem State.setCopyMap_tu (a : Nat) (m : List CopyEntry) : (s.setCopyMap a m).tu = s.tu := rfl
@[simp] theorem State.setCopyMap_op (a : Nat) (m : List CopyEntry) : (s.setCopyMap a m).op = s.op := rfl
@[simp] theorem State.setCopyMap_freeCount (a : Nat) (m : List CopyEntry) : (s.setCopyMap a m).freeCount = s.freeCount := rfl
@[simp] theorem State.setCopyMap_pending (a : Nat) (m : List CopyEntry) : (s.setCopyMap a m).pending = s.pending := rfl

@[simp] theorem State.setChanges_lc (l : List Change) : (s.setChanges l).lc = s.lc := rfl
@[simp] theorem State.setChanges_we (l : List Change) : (s.setChanges l).we = s.we := rfl
@[simp] theorem State.setChanges_art (l : List Change) : (s.setChanges l).art = s.art := rfl
@[simp] theorem State.setChanges_sc (l : List Change) : (s.setChanges l).sc = s.sc := rfl
@[simp] theorem State.setChanges_qc (l : List Change) : (s.setChanges l).qc = s.qc := rfl
@[simp] theorem State.setChanges_wu (l : List Change) : (s.setChanges l).wu = s.wu := rfl
@[simp] theorem State.setChanges_tu (l : List Change) : (s.setChanges l).tu = s.tu := rfl
@[simp] theorem State.setChanges_op (l : List Change) : (s.setChanges l).op = s.op := rfl
@[simp] theorem State.setChanges_freeCount (l : List Change) : (s.setChanges l).freeCount = s.freeCount := rfl
@[simp] theorem State.setChanges_pending (l : List Change) : (s.setChanges l).pending = s.pending := rfl

@[simp] theorem State.setClerk_lc (c : Nat) (r : Clerk) : (s.setClerk c r).lc = s.lc := rfl
@[simp] theorem State.setClerk_we (c : Nat) (r : Clerk) : (s.setClerk c r).we = s.we := rfl
@[simp] theorem State.setClerk_art (c : Nat) (r : Clerk) : (s.setClerk c r).art = s.art := rfl
@[simp] theorem State.setClerk_cd (c : Nat) (r : Clerk) : (s.setClerk c r).cd = s.cd := rfl
@[simp] theorem State.setClerk_qc (c : Nat) (r : Clerk) : (s.setClerk c r).qc = s.qc := rfl
@[simp] theorem State.setClerk_wu (c : Nat) (r : Clerk) : (s.setClerk c r).wu = s.wu := rfl
@[simp] theorem State.setClerk_tu (c : Nat) (r : Clerk) : (s.setClerk c r).tu = s.tu := rfl
@[simp] theorem State.setClerk_op (c : Nat) (r : Clerk) : (s.setClerk c r).op = s.op := rfl
@[simp] theorem State.setClerk_freeCount (c : Nat) (r : Clerk) : (s.setClerk c r).freeCount = s.freeCount := rfl
@[simp] theorem State.setClerk_pending (c : Nat) (r : Clerk) : (s.setClerk c r).pending = s.pending := rfl

@[simp] theorem State.setPrintRecord_lc (a : Nat) (r : PrintRecord) : (s.setPrintRecord a r).lc = s.lc := rfl
@[simp] theorem State.setPrintRecord_we (a : Nat) (r : PrintRecord) : (s.setPrintRecord a r).we = s.we := rfl
@[simp] theorem State.setPrintRecord_art (a : Nat) (r : PrintRecord) : (s.setPrintRecord a r).art = s.art := rfl
@[simp] theorem State.setPrintRecord_cd (a : Nat) (r : PrintRecord) : (s.setPrintRecord a r).cd = s.cd := rfl
@[simp] theorem State.setPrintRecord_qc (a : Nat) (r : PrintRecord) : (s.setPrintRecord a r).qc = s.qc := rfl
@[simp] theorem State.setPrintRecord_wu (a : Nat) (r : PrintRecord) : (s.setPrintRecord a r).wu = s.wu := rfl
@[simp] theorem State.setPrintRecord_tu (a : Nat) (r : PrintRecord) : (s.setPrintRecord a r).tu = s.tu := rfl
@[simp] theorem State.setPrintRecord_op (a : Nat) (r : PrintRecord) : (s.setPrintRecord a r).op = s.op := rfl
@[simp] theorem State.setPrintRecord_freeCount (a : Nat) (r : PrintRecord) : (s.setPrintRecord a r).freeCount = s.freeCount := rfl
@[simp] theorem State.setPrintRecord_pending (a : Nat) (r : PrintRecord) : (s.setPrintRecord a r).pending = s.pending := rfl

@[simp] theorem State.setTickets_lc (l : List Ticket) : (s.setTickets l).lc = s.lc := rfl
@[simp] theorem State.setTickets_we (l : List Ticket) : (s.setTickets l).we = s.we := rfl
@[simp] theorem State.setTickets_art (l : List Ticket) : (s.setTickets l).art = s.art := rfl
@[simp] theorem State.setTickets_cd (l : List Ticket) : (s.setTickets l).cd = s.cd := rfl
@[simp] theorem State.setTickets_qc (l : List Ticket) : (s.setTickets l).qc = s.qc := rfl
@[simp] theorem State.setTickets_wu (l : List Ticket) : (s.setTickets l).wu = s.wu := rfl
@[simp] theorem State.setTickets_tu (l : List Ticket) : (s.setTickets l).tu = s.tu := rfl
@[simp] theorem State.setTickets_op (l : List Ticket) : (s.setTickets l).op = s.op := rfl
@[simp] theorem State.setTickets_freeCount (l : List Ticket) : (s.setTickets l).freeCount = s.freeCount := rfl
@[simp] theorem State.setTickets_pending (l : List Ticket) : (s.setTickets l).pending = s.pending := rfl

@[simp] theorem State.setNow_lc (m : Nat) : (s.setNow m).lc = s.lc := rfl
@[simp] theorem State.setNow_we (m : Nat) : (s.setNow m).we = s.we := rfl
@[simp] theorem State.setNow_art (m : Nat) : (s.setNow m).art = s.art := rfl
@[simp] theorem State.setNow_cd (m : Nat) : (s.setNow m).cd = s.cd := rfl
@[simp] theorem State.setNow_sc (m : Nat) : (s.setNow m).sc = s.sc := rfl
@[simp] theorem State.setNow_qc (m : Nat) : (s.setNow m).qc = s.qc := rfl
@[simp] theorem State.setNow_wu (m : Nat) : (s.setNow m).wu = s.wu := rfl
@[simp] theorem State.setNow_tu (m : Nat) : (s.setNow m).tu = s.tu := rfl
@[simp] theorem State.setNow_freeCount (m : Nat) : (s.setNow m).freeCount = s.freeCount := rfl
@[simp] theorem State.setNow_pending (m : Nat) : (s.setNow m).pending = s.pending := rfl

@[simp] theorem State.reach_lc (m : Nat) : (s.reach m).lc = s.lc := rfl
@[simp] theorem State.reach_we (m : Nat) : (s.reach m).we = s.we := rfl
@[simp] theorem State.reach_art (m : Nat) : (s.reach m).art = s.art := rfl
@[simp] theorem State.reach_cd (m : Nat) : (s.reach m).cd = s.cd := rfl
@[simp] theorem State.reach_sc (m : Nat) : (s.reach m).sc = s.sc := rfl
@[simp] theorem State.reach_qc (m : Nat) : (s.reach m).qc = s.qc := rfl
@[simp] theorem State.reach_wu (m : Nat) : (s.reach m).wu = s.wu := rfl
@[simp] theorem State.reach_tu (m : Nat) : (s.reach m).tu = s.tu := rfl
@[simp] theorem State.reach_freeCount (m : Nat) : (s.reach m).freeCount = s.freeCount := rfl
@[simp] theorem State.reach_pending (m : Nat) : (s.reach m).pending = s.pending := rfl

@[simp] theorem State.raise_lc (k : NoticeKind) (l : List Nat) : (s.raise k l).lc = s.lc := rfl
@[simp] theorem State.raise_we (k : NoticeKind) (l : List Nat) : (s.raise k l).we = s.we := rfl
@[simp] theorem State.raise_art (k : NoticeKind) (l : List Nat) : (s.raise k l).art = s.art := rfl
@[simp] theorem State.raise_cd (k : NoticeKind) (l : List Nat) : (s.raise k l).cd = s.cd := rfl
@[simp] theorem State.raise_sc (k : NoticeKind) (l : List Nat) : (s.raise k l).sc = s.sc := rfl
@[simp] theorem State.raise_qc (k : NoticeKind) (l : List Nat) : (s.raise k l).qc = s.qc := rfl
@[simp] theorem State.raise_wu (k : NoticeKind) (l : List Nat) : (s.raise k l).wu = s.wu := rfl
@[simp] theorem State.raise_tu (k : NoticeKind) (l : List Nat) : (s.raise k l).tu = s.tu := rfl
@[simp] theorem State.raise_freeCount (k : NoticeKind) (l : List Nat) : (s.raise k l).freeCount = s.freeCount := rfl
@[simp] theorem State.raise_pending (k : NoticeKind) (l : List Nat) : (s.raise k l).pending = s.pending := rfl

@[simp] theorem State.storeResponse_lc (r : Response) : (s.storeResponse r).lc = s.lc := rfl
@[simp] theorem State.storeResponse_we (r : Response) : (s.storeResponse r).we = s.we := rfl
@[simp] theorem State.storeResponse_art (r : Response) : (s.storeResponse r).art = s.art := rfl
@[simp] theorem State.storeResponse_cd (r : Response) : (s.storeResponse r).cd = s.cd := rfl
@[simp] theorem State.storeResponse_sc (r : Response) : (s.storeResponse r).sc = s.sc := rfl
@[simp] theorem State.storeResponse_qc (r : Response) : (s.storeResponse r).qc = s.qc := rfl
@[simp] theorem State.storeResponse_wu (r : Response) : (s.storeResponse r).wu = s.wu := rfl
@[simp] theorem State.storeResponse_tu (r : Response) : (s.storeResponse r).tu = s.tu := rfl
@[simp] theorem State.storeResponse_freeCount (r : Response) : (s.storeResponse r).freeCount = s.freeCount := rfl
@[simp] theorem State.storeResponse_pending (r : Response) : (s.storeResponse r).pending = s.pending := rfl

@[simp] theorem State.releaseResponse_lc : (s.releaseResponse).lc = s.lc := rfl
@[simp] theorem State.releaseResponse_we : (s.releaseResponse).we = s.we := rfl
@[simp] theorem State.releaseResponse_art : (s.releaseResponse).art = s.art := rfl
@[simp] theorem State.releaseResponse_cd : (s.releaseResponse).cd = s.cd := rfl
@[simp] theorem State.releaseResponse_sc : (s.releaseResponse).sc = s.sc := rfl
@[simp] theorem State.releaseResponse_qc : (s.releaseResponse).qc = s.qc := rfl
@[simp] theorem State.releaseResponse_wu : (s.releaseResponse).wu = s.wu := rfl
@[simp] theorem State.releaseResponse_tu : (s.releaseResponse).tu = s.tu := rfl
@[simp] theorem State.releaseResponse_freeCount : (s.releaseResponse).freeCount = s.freeCount := rfl
@[simp] theorem State.releaseResponse_pending : (s.releaseResponse).pending = s.pending := rfl

@[simp] theorem State.answer_lc (code : Byte) (r : Answer) : (s.answer code r).lc = s.lc := rfl
@[simp] theorem State.answer_we (code : Byte) (r : Answer) : (s.answer code r).we = s.we := rfl
@[simp] theorem State.answer_art (code : Byte) (r : Answer) : (s.answer code r).art = s.art := rfl
@[simp] theorem State.answer_cd (code : Byte) (r : Answer) : (s.answer code r).cd = s.cd := rfl
@[simp] theorem State.answer_sc (code : Byte) (r : Answer) : (s.answer code r).sc = s.sc := rfl
@[simp] theorem State.answer_qc (code : Byte) (r : Answer) : (s.answer code r).qc = s.qc := rfl
@[simp] theorem State.answer_wu (code : Byte) (r : Answer) : (s.answer code r).wu = s.wu := rfl
@[simp] theorem State.answer_tu (code : Byte) (r : Answer) : (s.answer code r).tu = s.tu := rfl
@[simp] theorem State.answer_freeCount (code : Byte) (r : Answer) : (s.answer code r).freeCount = s.freeCount := rfl
@[simp] theorem State.answer_pending (code : Byte) (r : Answer) : (s.answer code r).pending = s.pending := rfl

@[simp] theorem State.sent_lc (out : List Byte) : (s.sent out).lc = s.lc := rfl
@[simp] theorem State.sent_we (out : List Byte) : (s.sent out).we = s.we := rfl
@[simp] theorem State.sent_art (out : List Byte) : (s.sent out).art = s.art := rfl
@[simp] theorem State.sent_cd (out : List Byte) : (s.sent out).cd = s.cd := rfl
@[simp] theorem State.sent_sc (out : List Byte) : (s.sent out).sc = s.sc := rfl
@[simp] theorem State.sent_qc (out : List Byte) : (s.sent out).qc = s.qc := rfl
@[simp] theorem State.sent_wu (out : List Byte) : (s.sent out).wu = s.wu := rfl
@[simp] theorem State.sent_tu (out : List Byte) : (s.sent out).tu = s.tu := rfl
@[simp] theorem State.sent_freeCount (out : List Byte) : (s.sent out).freeCount = s.freeCount := rfl
@[simp] theorem State.sent_pending (out : List Byte) : (s.sent out).pending = s.pending := rfl

@[simp] theorem State.openVisit_we (v : Visit) : (s.openVisit v).we = s.we := rfl
@[simp] theorem State.openVisit_art (v : Visit) : (s.openVisit v).art = s.art := rfl
@[simp] theorem State.openVisit_cd (v : Visit) : (s.openVisit v).cd = s.cd := rfl
@[simp] theorem State.openVisit_sc (v : Visit) : (s.openVisit v).sc = s.sc := rfl
@[simp] theorem State.openVisit_qc (v : Visit) : (s.openVisit v).qc = s.qc := rfl
@[simp] theorem State.openVisit_wu (v : Visit) : (s.openVisit v).wu = s.wu := rfl
@[simp] theorem State.openVisit_tu (v : Visit) : (s.openVisit v).tu = s.tu := rfl
@[simp] theorem State.openVisit_op (v : Visit) : (s.openVisit v).op = s.op := rfl
@[simp] theorem State.openVisit_freeCount (v : Visit) : (s.openVisit v).freeCount = s.freeCount := rfl
@[simp] theorem State.openVisit_pending (v : Visit) : (s.openVisit v).pending = s.pending := rfl

@[simp] theorem State.endVisit_we : (s.endVisit).we = s.we := rfl
@[simp] theorem State.endVisit_art : (s.endVisit).art = s.art := rfl
@[simp] theorem State.endVisit_cd : (s.endVisit).cd = s.cd := rfl
@[simp] theorem State.endVisit_sc : (s.endVisit).sc = s.sc := rfl
@[simp] theorem State.endVisit_qc : (s.endVisit).qc = s.qc := rfl
@[simp] theorem State.endVisit_wu : (s.endVisit).wu = s.wu := rfl
@[simp] theorem State.endVisit_tu : (s.endVisit).tu = s.tu := rfl
@[simp] theorem State.endVisit_op : (s.endVisit).op = s.op := rfl
@[simp] theorem State.endVisit_freeCount : (s.endVisit).freeCount = s.freeCount := rfl
@[simp] theorem State.endVisit_pending : (s.endVisit).pending = s.pending := rfl

@[simp] theorem State.openTicket_lc (t : Ticket) : (s.openTicket t).lc = s.lc := rfl
@[simp] theorem State.openTicket_we (t : Ticket) : (s.openTicket t).we = s.we := rfl
@[simp] theorem State.openTicket_art (t : Ticket) : (s.openTicket t).art = s.art := rfl
@[simp] theorem State.openTicket_cd (t : Ticket) : (s.openTicket t).cd = s.cd := rfl
@[simp] theorem State.openTicket_qc (t : Ticket) : (s.openTicket t).qc = s.qc := rfl
@[simp] theorem State.openTicket_wu (t : Ticket) : (s.openTicket t).wu = s.wu := rfl
@[simp] theorem State.openTicket_tu (t : Ticket) : (s.openTicket t).tu = s.tu := rfl
@[simp] theorem State.openTicket_op (t : Ticket) : (s.openTicket t).op = s.op := rfl
@[simp] theorem State.openTicket_freeCount (t : Ticket) : (s.openTicket t).freeCount = s.freeCount := rfl
@[simp] theorem State.openTicket_pending (t : Ticket) : (s.openTicket t).pending = s.pending := rfl

@[simp] theorem State.setServing_lc (l : List (Nat × Nat)) : (s.setServing l).lc = s.lc := rfl
@[simp] theorem State.setServing_we (l : List (Nat × Nat)) : (s.setServing l).we = s.we := rfl
@[simp] theorem State.setServing_art (l : List (Nat × Nat)) : (s.setServing l).art = s.art := rfl
@[simp] theorem State.setServing_cd (l : List (Nat × Nat)) : (s.setServing l).cd = s.cd := rfl
@[simp] theorem State.setServing_sc (l : List (Nat × Nat)) : (s.setServing l).sc = s.sc := rfl
@[simp] theorem State.setServing_wu (l : List (Nat × Nat)) : (s.setServing l).wu = s.wu := rfl
@[simp] theorem State.setServing_tu (l : List (Nat × Nat)) : (s.setServing l).tu = s.tu := rfl
@[simp] theorem State.setServing_op (l : List (Nat × Nat)) : (s.setServing l).op = s.op := rfl
@[simp] theorem State.setServing_freeCount (l : List (Nat × Nat)) : (s.setServing l).freeCount = s.freeCount := rfl
@[simp] theorem State.setServing_pending (l : List (Nat × Nat)) : (s.setServing l).pending = s.pending := rfl

@[simp] theorem State.enterLevel_lc (v : RushLevel) : (s.enterLevel v).lc = s.lc := rfl
@[simp] theorem State.enterLevel_we (v : RushLevel) : (s.enterLevel v).we = s.we := rfl
@[simp] theorem State.enterLevel_art (v : RushLevel) : (s.enterLevel v).art = s.art := rfl
@[simp] theorem State.enterLevel_cd (v : RushLevel) : (s.enterLevel v).cd = s.cd := rfl
@[simp] theorem State.enterLevel_sc (v : RushLevel) : (s.enterLevel v).sc = s.sc := rfl
@[simp] theorem State.enterLevel_wu (v : RushLevel) : (s.enterLevel v).wu = s.wu := rfl
@[simp] theorem State.enterLevel_tu (v : RushLevel) : (s.enterLevel v).tu = s.tu := rfl
@[simp] theorem State.enterLevel_op (v : RushLevel) : (s.enterLevel v).op = s.op := rfl
@[simp] theorem State.enterLevel_freeCount (v : RushLevel) : (s.enterLevel v).freeCount = s.freeCount := rfl
@[simp] theorem State.enterLevel_pending (v : RushLevel) : (s.enterLevel v).pending = s.pending := rfl

@[simp] theorem State.countMatches_lc (r : WatchResult) : (s.countMatches r).lc = s.lc := rfl
@[simp] theorem State.countMatches_we (r : WatchResult) : (s.countMatches r).we = s.we := rfl
@[simp] theorem State.countMatches_art (r : WatchResult) : (s.countMatches r).art = s.art := rfl
@[simp] theorem State.countMatches_cd (r : WatchResult) : (s.countMatches r).cd = s.cd := rfl
@[simp] theorem State.countMatches_sc (r : WatchResult) : (s.countMatches r).sc = s.sc := rfl
@[simp] theorem State.countMatches_qc (r : WatchResult) : (s.countMatches r).qc = s.qc := rfl
@[simp] theorem State.countMatches_tu (r : WatchResult) : (s.countMatches r).tu = s.tu := rfl
@[simp] theorem State.countMatches_op (r : WatchResult) : (s.countMatches r).op = s.op := rfl
@[simp] theorem State.countMatches_freeCount (r : WatchResult) : (s.countMatches r).freeCount = s.freeCount := rfl
@[simp] theorem State.countMatches_pending (r : WatchResult) : (s.countMatches r).pending = s.pending := rfl

@[simp] theorem State.putTicket_lc (t : Ticket) : (s.putTicket t).lc = s.lc := rfl
@[simp] theorem State.putTicket_we (t : Ticket) : (s.putTicket t).we = s.we := rfl
@[simp] theorem State.putTicket_art (t : Ticket) : (s.putTicket t).art = s.art := rfl
@[simp] theorem State.putTicket_cd (t : Ticket) : (s.putTicket t).cd = s.cd := rfl
@[simp] theorem State.putTicket_qc (t : Ticket) : (s.putTicket t).qc = s.qc := rfl
@[simp] theorem State.putTicket_wu (t : Ticket) : (s.putTicket t).wu = s.wu := rfl
@[simp] theorem State.putTicket_tu (t : Ticket) : (s.putTicket t).tu = s.tu := rfl
@[simp] theorem State.putTicket_op (t : Ticket) : (s.putTicket t).op = s.op := rfl
@[simp] theorem State.putTicket_freeCount (t : Ticket) : (s.putTicket t).freeCount = s.freeCount := rfl
@[simp] theorem State.putTicket_pending (t : Ticket) : (s.putTicket t).pending = s.pending := rfl

/-! ## Reading after a write -/

@[simp] theorem State.station_setStation (a b : Nat) (r : Station) :
    (s.setStation a r).station b = if b = a then r else s.station b := Tbl.read_write _ _ _ _ _

/-- Of two writes of one station's record the later stands. -/
theorem State.setStation_setStation (a : Nat) (x y : Station) : (s.setStation a x).setStation a y = s.setStation a y := by
  unfold State.setStation
  dsimp only
  rw [Tbl.write_write]

@[simp] theorem State.channel_setChannel (a b : Nat) (r : Channel) :
    (s.setChannel a r).channel b = if b = a then r else s.channel b := Tbl.read_write _ _ _ _ _

@[simp] theorem State.article_setArticle (a b : Nat) (r : Article) :
    (s.setArticle a r).article b = if b = a then r else s.article b := Tbl.read_write _ _ _ _ _

@[simp] theorem State.copyMap_setCopyMap (a b : Nat) (m : List CopyEntry) :
    (s.setCopyMap a m).copyMap b = if b = a then m else s.copyMap b := Tbl.read_write _ _ _ _ _

@[simp] theorem State.clerk_setClerk (a b : Nat) (r : Clerk) :
    (s.setClerk a r).clerk b = if b = a then r else s.clerk b := Tbl.read_write _ _ _ _ _

@[simp] theorem State.printRecord_setPrintRecord (a b : Nat) (r : PrintRecord) :
    (s.setPrintRecord a r).printRecord b = if b = a then r else s.printRecord b := Tbl.read_write _ _ _ _ _

@[simp] theorem State.tickets_setTickets (l : List Ticket) : (s.setTickets l).sc.tickets = l := rfl

@[simp] theorem State.changes_setChanges (l : List Change) : (s.setChanges l).cd.changes = l := rfl

@[simp] theorem State.maps_setChanges (l : List Change) : (s.setChanges l).cd.maps = s.cd.maps := rfl

@[simp] theorem State.changes_setCopyMap (a : Nat) (m : List CopyEntry) :
    (s.setCopyMap a m).cd.changes = s.cd.changes := rfl

@[simp] theorem State.visit_setStation (a : Nat) (r : Station) : (s.setStation a r).lc.visit = s.lc.visit := rfl

@[simp] theorem State.clerks_setTickets (l : List Ticket) : (s.setTickets l).sc.clerks = s.sc.clerks := rfl

@[simp] theorem State.prints_setTickets (l : List Ticket) : (s.setTickets l).sc.prints = s.sc.prints := rfl

@[simp] theorem State.tickets_setClerk (c : Nat) (r : Clerk) : (s.setClerk c r).sc.tickets = s.sc.tickets := rfl

@[simp] theorem State.tickets_setPrintRecord (a : Nat) (r : PrintRecord) :
    (s.setPrintRecord a r).sc.tickets = s.sc.tickets := rfl

@[simp] theorem State.lastTicket_setTickets (l : List Ticket) : (s.setTickets l).sc.lastTicket = s.sc.lastTicket := rfl

@[simp] theorem State.now_setNow (m : Nat) : (s.setNow m).op.now = m := rfl

@[simp] theorem State.now_reach (m : Nat) : (s.reach m).op.now = max s.op.now m := rfl

/-! ## Records that depend on one block -/

theorem State.station_of_lc {s t : State} (h : t.lc = s.lc) (a : Nat) : t.station a = s.station a := by
  simp [State.station, h]

theorem State.inService_of_lc {s t : State} (h : t.lc = s.lc) (a : Nat) : t.inService a = s.inService a := by
  simp [State.inService, State.station_of_lc h]

theorem State.channel_of_we {s t : State} (h : t.we = s.we) (a : Nat) : t.channel a = s.channel a := by
  simp [State.channel, h]

theorem State.article_of_art {s t : State} (h : t.art = s.art) (n : Nat) : t.article n = s.article n := by
  simp [State.article, h]

theorem State.copyMap_of_cd {s t : State} (h : t.cd = s.cd) (a : Nat) : t.copyMap a = s.copyMap a := by
  simp [State.copyMap, h]

theorem State.changeOf_of_cd {s t : State} (h : t.cd = s.cd) (n : Nat) : t.changeOf n = s.changeOf n := by
  simp [State.changeOf, h]

theorem State.clerk_of_sc {s t : State} (h : t.sc = s.sc) (c : Nat) : t.clerk c = s.clerk c := by
  simp [State.clerk, h]

theorem State.printRecord_of_sc {s t : State} (h : t.sc = s.sc) (a : Nat) : t.printRecord a = s.printRecord a := by
  simp [State.printRecord, h]

theorem State.ticketOf_of_sc {s t : State} (h : t.sc = s.sc) (n : Nat) : t.ticketOf n = s.ticketOf n := by
  simp [State.ticketOf, h]

theorem State.clerkAt_of_we {s t : State} (h : t.we = s.we) (a : Nat) : t.clerkAt a = s.clerkAt a := by
  simp [State.clerkAt, State.channel_of_we h]

end Sys2Proof.Machine
end

