-- ==== Sys2Proof/Laws/Chars.lean ====
section
/-! SUPPORT. Characters: lengths and values of numbers of several characters, and the pieces that a frame or a command
body is cut into. -/

namespace Sys2Proof.Machine

@[simp] theorem chars_length (n v : Nat) : (chars n v).length = n := by
  induction n generalizing v with
  | zero => rfl
  | succ n ih => simp [chars, ih]

@[simp] theorem signedChars_length (n : Nat) (v : Int) : (signedChars n v).length = n := chars_length n _

theorem number_foldl (l : List Byte) (acc : Nat) :
    l.foldl (fun a c => a * 256 + c.toNat) acc = acc * 256 ^ l.length + number l := by
  induction l generalizing acc with
  | nil => simp [number]
  | cons c rest ih =>
    simp only [List.foldl_cons, List.length_cons, number]
    rw [ih, ih (0 * 256 + c.toNat)]
    ring

theorem number_cons (c : Byte) (l : List Byte) : number (c :: l) = c.toNat * 256 ^ l.length + number l := by
  have := number_foldl l (0 * 256 + c.toNat)
  simp only [number, List.foldl_cons] at this ⊢
  rw [this]
  ring

/-- A number reads back modulo what its characters can carry. -/
theorem number_chars_mod (n v : Nat) : number (chars n v) = v % 256 ^ n := by
  induction n generalizing v with
  | zero => simp [chars, number, Nat.mod_one]
  | succ n ih =>
    have h := Nat.mod_mul (x := v) (a := 256 ^ n) (b := 256)
    have hc : 256 ^ n * (v / 256 ^ n % 256) = v / 256 ^ n % 256 * 256 ^ n := Nat.mul_comm _ _
    rw [chars, number_cons, chars_length, ih, BitVec.toNat_ofNat]
    show v / 256 ^ n % 256 * 256 ^ n + v % 256 ^ n = v % (256 ^ n * 256)
    omega

theorem number_lt (l : List Byte) : number l < 256 ^ l.length := by
  induction l with
  | nil => simp [number]
  | cons c rest ih =>
    rw [number_cons, List.length_cons, pow_succ]
    have := c.isLt
    have h : c.toNat * 256 ^ rest.length ≤ 255 * 256 ^ rest.length := Nat.mul_le_mul_right _ (by omega)
    omega

/-- A field of a body that starts with other fields. -/
theorem field_append (l r : List Byte) (i n : Nat) (h : l.length + 1 ≤ i) :
    field (l ++ r) i n = field r (i - l.length) n := by
  unfold field
  rw [List.drop_append]
  have h1 : List.drop (i - 1) l = [] := List.drop_eq_nil_of_le (by omega)
  have h2 : i - 1 - l.length = i - l.length - 1 := by omega
  rw [h1, h2, List.nil_append]

/-- The first field of a body. -/
theorem field_head (n v : Nat) (r : List Byte) : field (chars n v ++ r) 1 n = v % 256 ^ n := by
  unfold field
  have h : List.drop (1 - 1) (chars n v ++ r) = chars n v ++ r := rfl
  rw [h, List.take_left' (chars_length n v), number_chars_mod]

theorem field_chars (n v : Nat) : field (chars n v) 1 n = v % 256 ^ n := by
  have := field_head n v []
  rwa [List.append_nil] at this

end Sys2Proof.Machine
end

