-- ==== Sys2Proof/Laws/Frames.lean ====
section
/-! SUPPORT. Frames: for every operation of the part, the blocks it may change; all others are as before it. Each lemma
extends a frame by one operation, so that simp assembles the frame of an event from those of its operations. -/

namespace Sys2Proof.Machine

/-! ## The frame relation -/

@[simp] theorem Changes.refl (l : List Block) (s : State) : Changes l s s := ⟨fun b _ => by cases b <;> rfl⟩

theorem Changes.trans {l : List Block} {s t u : State} (h : Changes l s t) (k : Changes l t u) : Changes l s u := by
  refine ⟨fun b hb => ?_⟩
  have h1 := h.frame b hb
  have h2 := k.frame b hb
  cases b <;> exact h2.trans h1

theorem Changes.of {l m : List Block} {s t : State} (k : Changes l s t) (hm : l.all m.contains = true) :
    Changes m s t :=
  ⟨fun b hb => k.frame b (fun hl => hb (by simpa using List.all_eq_true.mp hm b hl))⟩

@[simp] theorem Changes.foldl {β : Type} {l : List Block} {s t : State} {f : State → β → State} (xs : List β)
    (h : Changes l s t) (hf : ∀ u x, Changes l u (f u x)) : Changes l s (xs.foldl f t) := by
  induction xs generalizing t with
  | nil => exact h
  | cons x rest ih => exact ih (h.trans (hf t x))

/-- A block outside the list, as an equation. -/
theorem Changes.same {l : List Block} {s t : State} (h : Changes l s t) (b : Block) (hb : l.contains b = false) :
    s.same t b :=
  h.frame b (fun hm => by simp [hm] at hb)

/-! ## Record updates -/

@[simp] theorem State.setStation_changes {m : List Block} {s t : State} (a : Nat) (r : Station) (h : Changes m s t)
    (hm : [Block.lc].all m.contains = true) : Changes m s (t.setStation a r) := by
  refine h.trans (.of (l := [Block.lc]) ?_ hm)
  exact ⟨fun b hb => by cases b <;> first | rfl | exact (hb (by simp)).elim⟩

@[simp] theorem State.setChannel_changes {m : List Block} {s t : State} (a : Nat) (r : Channel) (h : Changes m s t)
    (hm : [Block.we].all m.contains = true) : Changes m s (t.setChannel a r) := by
  refine h.trans (.of (l := [Block.we]) ?_ hm)
  exact ⟨fun b hb => by cases b <;> first | rfl | exact (hb (by simp)).elim⟩

@[simp] theorem State.setArticle_changes {m : List Block} {s t : State} (n : Nat) (r : Article) (h : Changes m s t)
    (hm : [Block.art].all m.contains = true) : Changes m s (t.setArticle n r) := by
  refine h.trans (.of (l := [Block.art]) ?_ hm)
  exact ⟨fun b hb => by cases b <;> first | rfl | exact (hb (by simp)).elim⟩

@[simp] theorem State.setCopyMap_changes {m : List Block} {s t : State} (a : Nat) (l : List CopyEntry) (h : Changes m s t)
    (hm : [Block.cd].all m.contains = true) : Changes m s (t.setCopyMap a l) := by
  refine h.trans (.of (l := [Block.cd]) ?_ hm)
  exact ⟨fun b hb => by cases b <;> first | rfl | exact (hb (by simp)).elim⟩

@[simp] theorem State.setChanges_changes {m : List Block} {s t : State} (l : List Change) (h : Changes m s t)
    (hm : [Block.cd].all m.contains = true) : Changes m s (t.setChanges l) := by
  refine h.trans (.of (l := [Block.cd]) ?_ hm)
  exact ⟨fun b hb => by cases b <;> first | rfl | exact (hb (by simp)).elim⟩

@[simp] theorem State.setClerk_changes {m : List Block} {s t : State} (c : Nat) (r : Clerk) (h : Changes m s t)
    (hm : [Block.sc].all m.contains = true) : Changes m s (t.setClerk c r) := by
  refine h.trans (.of (l := [Block.sc]) ?_ hm)
  exact ⟨fun b hb => by cases b <;> first | rfl | exact (hb (by simp)).elim⟩

@[simp] theorem State.setPrintRecord_changes {m : List Block} {s t : State} (a : Nat) (r : PrintRecord) (h : Changes m s t)
    (hm : [Block.sc].all m.contains = true) : Changes m s (t.setPrintRecord a r) := by
  refine h.trans (.of (l := [Block.sc]) ?_ hm)
  exact ⟨fun b hb => by cases b <;> first | rfl | exact (hb (by simp)).elim⟩

@[simp] theorem State.setTickets_changes {m : List Block} {s t : State} (l : List Ticket) (h : Changes m s t)
    (hm : [Block.sc].all m.contains = true) : Changes m s (t.setTickets l) := by
  refine h.trans (.of (l := [Block.sc]) ?_ hm)
  exact ⟨fun b hb => by cases b <;> first | rfl | exact (hb (by simp)).elim⟩

@[simp] theorem State.openTicket_changes {m : List Block} {s t : State} (x : Ticket) (h : Changes m s t)
    (hm : [Block.sc].all m.contains = true) : Changes m s (t.openTicket x) := by
  refine h.trans (.of (l := [Block.sc]) ?_ hm)
  exact ⟨fun b hb => by cases b <;> first | rfl | exact (hb (by simp)).elim⟩

@[simp] theorem State.putTicket_changes {m : List Block} {s t : State} (x : Ticket) (h : Changes m s t)
    (hm : [Block.sc].all m.contains = true) : Changes m s (t.putTicket x) := by
  refine h.trans (.of (l := [Block.sc]) ?_ hm)
  exact ⟨fun b hb => by cases b <;> first | rfl | exact (hb (by simp)).elim⟩

@[simp] theorem State.setServing_changes {m : List Block} {s t : State} (l : List (Nat × Nat)) (h : Changes m s t)
    (hm : [Block.qc].all m.contains = true) : Changes m s (t.setServing l) := by
  refine h.trans (.of (l := [Block.qc]) ?_ hm)
  exact ⟨fun b hb => by cases b <;> first | rfl | exact (hb (by simp)).elim⟩

@[simp] theorem State.enterLevel_changes {m : List Block} {s t : State} (v : RushLevel) (h : Changes m s t)
    (hm : [Block.qc].all m.contains = true) : Changes m s (t.enterLevel v) := by
  refine h.trans (.of (l := [Block.qc]) ?_ hm)
  exact ⟨fun b hb => by cases b <;> first | rfl | exact (hb (by simp)).elim⟩

@[simp] theorem State.countMatches_changes {m : List Block} {s t : State} (r : WatchResult) (h : Changes m s t)
    (hm : [Block.wu].all m.contains = true) : Changes m s (t.countMatches r) := by
  refine h.trans (.of (l := [Block.wu]) ?_ hm)
  exact ⟨fun b hb => by cases b <;> first | rfl | exact (hb (by simp)).elim⟩

@[simp] theorem State.setNow_changes {m : List Block} {s t : State} (x : Nat) (h : Changes m s t)
    (hm : [Block.op].all m.contains = true) : Changes m s (t.setNow x) := by
  refine h.trans (.of (l := [Block.op]) ?_ hm)
  exact ⟨fun b hb => by cases b <;> first | rfl | exact (hb (by simp)).elim⟩

@[simp] theorem State.reach_changes {m : List Block} {s t : State} (x : Nat) (h : Changes m s t)
    (hm : [Block.op].all m.contains = true) : Changes m s (t.reach x) := by
  refine h.trans (.of (l := [Block.op]) ?_ hm)
  exact ⟨fun b hb => by cases b <;> first | rfl | exact (hb (by simp)).elim⟩

@[simp] theorem State.raise_changes {m : List Block} {s t : State} (k : NoticeKind) (l : List Nat) (h : Changes m s t)
    (hm : [Block.op].all m.contains = true) : Changes m s (t.raise k l) := by
  refine h.trans (.of (l := [Block.op]) ?_ hm)
  exact ⟨fun b hb => by cases b <;> first | rfl | exact (hb (by simp)).elim⟩

@[simp] theorem State.answer_changes {m : List Block} {s t : State} (code : Byte) (r : Answer) (h : Changes m s t)
    (hm : [Block.op].all m.contains = true) : Changes m s (t.answer code r) := by
  refine h.trans (.of (l := [Block.op]) ?_ hm)
  exact ⟨fun b hb => by cases b <;> first | rfl | exact (hb (by simp)).elim⟩

@[simp] theorem State.sent_changes {m : List Block} {s t : State} (out : List Byte) (h : Changes m s t)
    (hm : [Block.op].all m.contains = true) : Changes m s (t.sent out) := by
  refine h.trans (.of (l := [Block.op]) ?_ hm)
  exact ⟨fun b hb => by cases b <;> first | rfl | exact (hb (by simp)).elim⟩

@[simp] theorem State.releaseResponse_changes {m : List Block} {s t : State} (h : Changes m s t)
    (hm : [Block.op].all m.contains = true) : Changes m s t.releaseResponse := by
  refine h.trans (.of (l := [Block.op]) ?_ hm)
  exact ⟨fun b hb => by cases b <;> first | rfl | exact (hb (by simp)).elim⟩

@[simp] theorem State.openVisit_changes {m : List Block} {s t : State} (v : Visit) (h : Changes m s t)
    (hm : [Block.lc].all m.contains = true) : Changes m s (t.openVisit v) := by
  refine h.trans (.of (l := [Block.lc]) ?_ hm)
  exact ⟨fun b hb => by cases b <;> first | rfl | exact (hb (by simp)).elim⟩

@[simp] theorem State.endVisit_changes {m : List Block} {s t : State} (h : Changes m s t)
    (hm : [Block.lc].all m.contains = true) : Changes m s t.endVisit := by
  refine h.trans (.of (l := [Block.lc]) ?_ hm)
  exact ⟨fun b hb => by cases b <;> first | rfl | exact (hb (by simp)).elim⟩

@[simp] theorem State.beginProbe_changes {m : List Block} {s t : State} (a : Nat) (h : Changes m s t)
    (hm : [Block.lc].all m.contains = true) : Changes m s (t.beginProbe a) := by
  refine h.trans (.of (l := [Block.lc]) ?_ hm)
  exact ⟨fun b hb => by cases b <;> first | rfl | exact (hb (by simp)).elim⟩

@[simp] theorem State.restartPort_changes {m : List Block} {s t : State} (c : StartCause) (h : Changes m s t)
    (hm : [Block.op].all m.contains = true) : Changes m s (t.restartPort c) := by
  refine h.trans (.of (l := [Block.op]) ?_ hm)
  exact ⟨fun b hb => by cases b <;> first | rfl | exact (hb (by simp)).elim⟩

@[simp] theorem State.clockTick_changes {m : List Block} {s t : State} (h : Changes m s t)
    (hm : [Block.op].all m.contains = true) : Changes m s t.clockTick := by
  refine h.trans (.of (l := [Block.op]) ?_ hm)
  exact ⟨fun b hb => by cases b <;> first | rfl | exact (hb (by simp)).elim⟩

@[simp] theorem State.lineUpdate_changes {m : List Block} {s t : State} (x : LineController) (h : Changes m s t)
    (hm : [Block.lc].all m.contains = true) : Changes m s { t with lc := x } := by
  refine h.trans (.of (l := [Block.lc]) ?_ hm)
  exact ⟨fun b hb => by cases b <;> first | rfl | exact (hb (by simp)).elim⟩

@[simp] theorem State.queueUpdate_changes {m : List Block} {s t : State} (x : QueueController) (h : Changes m s t)
    (hm : [Block.qc].all m.contains = true) : Changes m s { t with qc := x } := by
  refine h.trans (.of (l := [Block.qc]) ?_ hm)
  exact ⟨fun b hb => by cases b <;> first | rfl | exact (hb (by simp)).elim⟩

@[simp] theorem State.portUpdate_changes {m : List Block} {s t : State} (x : OfficePort) (h : Changes m s t)
    (hm : [Block.op].all m.contains = true) : Changes m s { t with op := x } := by
  refine h.trans (.of (l := [Block.op]) ?_ hm)
  exact ⟨fun b hb => by cases b <;> first | rfl | exact (hb (by simp)).elim⟩

@[simp] theorem State.copyUpdate_changes {m : List Block} {s t : State} (x : CopyDirectory) (h : Changes m s t)
    (hm : [Block.cd].all m.contains = true) : Changes m s { t with cd := x } := by
  refine h.trans (.of (l := [Block.cd]) ?_ hm)
  exact ⟨fun b hb => by cases b <;> first | rfl | exact (hb (by simp)).elim⟩

@[simp] theorem State.watchUpdate_changes {m : List Block} {s t : State} (x : WatchUnit) (h : Changes m s t)
    (hm : [Block.wu].all m.contains = true) : Changes m s { t with wu := x } := by
  refine h.trans (.of (l := [Block.wu]) ?_ hm)
  exact ⟨fun b hb => by cases b <;> first | rfl | exact (hb (by simp)).elim⟩

@[simp] theorem State.totalsUpdate_changes {m : List Block} {s t : State} (x : TotalsUnit) (h : Changes m s t)
    (hm : [Block.tu].all m.contains = true) : Changes m s { t with tu := x } := by
  refine h.trans (.of (l := [Block.tu]) ?_ hm)
  exact ⟨fun b hb => by cases b <;> first | rfl | exact (hb (by simp)).elim⟩

@[simp] theorem State.countUpdate_changes {m : List Block} {s t : State} (x : Nat) (h : Changes m s t)
    (hm : [Block.free].all m.contains = true) : Changes m s { t with freeCount := x } := by
  refine h.trans (.of (l := [Block.free]) ?_ hm)
  exact ⟨fun b hb => by cases b <;> first | rfl | exact (hb (by simp)).elim⟩

/-! ## Queues and messages (R13 to R22) -/

@[simp] theorem State.offerVerdict_changes {m : List Block} {s t : State} (a : Nat) (h : Changes m s t)
    (hm : [Block.lc].all m.contains = true) : Changes m s (t.offerVerdict a) := by
  refine h.trans (.of (l := [Block.lc]) ?_ hm)
  unfold State.offerVerdict
  dsimp only
  (repeat' split) <;> simp (maxDischargeDepth := 60)

@[simp] theorem State.offerCallout_changes {m : List Block} {s t : State} (h : Changes m s t)
    (hm : [Block.lc].all m.contains = true) : Changes m s t.offerCallout := by
  refine h.trans (.of (l := [Block.lc]) ?_ hm)
  unfold State.offerCallout
  dsimp only
  (repeat' split) <;> simp (maxDischargeDepth := 60)

@[simp] theorem State.offerTail_changes {m : List Block} {s t : State} (a : Nat) (x : DownMsg) (h : Changes m s t)
    (hm : [Block.lc].all m.contains = true) : Changes m s (t.offerTail a x) := by
  refine h.trans (.of (l := [Block.lc]) ?_ hm)
  unfold State.offerTail
  dsimp only
  (repeat' split) <;> simp (maxDischargeDepth := 60)

@[simp] theorem State.reply_changes {m : List Block} {s t : State} (a action : Nat) (code : ReplyCode) (data : List Byte) (h : Changes m s t)
    (hm : [Block.lc].all m.contains = true) : Changes m s (t.reply a action code data) := by
  refine h.trans (.of (l := [Block.lc]) ?_ hm)
  unfold State.reply
  simp (maxDischargeDepth := 60)

@[simp] theorem State.refill_changes {m : List Block} {s t : State} (a : Nat) (h : Changes m s t)
    (hm : [Block.lc].all m.contains = true) : Changes m s (t.refill a) := by
  refine h.trans (.of (l := [Block.lc]) ?_ hm)
  unfold State.refill
  dsimp only
  (repeat' split) <;> simp (maxDischargeDepth := 60)

@[simp] theorem State.offerPurgeAll_changes {m : List Block} {s t : State} (a : Nat) (h : Changes m s t)
    (hm : [Block.lc].all m.contains = true) : Changes m s (t.offerPurgeAll a) := by
  refine h.trans (.of (l := [Block.lc]) ?_ hm)
  unfold State.offerPurgeAll
  (repeat' split) <;> simp (maxDischargeDepth := 60)

@[simp] theorem State.offerSetmode_changes {m : List Block} {s t : State} (a : Nat) (h : Changes m s t)
    (hm : [Block.lc].all m.contains = true) : Changes m s (t.offerSetmode a) := by
  refine h.trans (.of (l := [Block.lc]) ?_ hm)
  unfold State.offerSetmode
  simp (maxDischargeDepth := 60)

@[simp] theorem State.recomputeJoin_changes {m : List Block} {s t : State} (a : Nat) (h : Changes m s t)
    (hm : [Block.lc].all m.contains = true) : Changes m s (t.recomputeJoin a) := by
  refine h.trans (.of (l := [Block.lc]) ?_ hm)
  unfold State.recomputeJoin
  dsimp only
  (repeat' split) <;> simp (maxDischargeDepth := 60)

@[simp] theorem State.markTaken_changes {m : List Block} {s t : State} (a : Nat) (h : Changes m s t)
    (hm : [Block.lc].all m.contains = true) : Changes m s (t.markTaken a) := by
  refine h.trans (.of (l := [Block.lc]) ?_ hm)
  unfold State.markTaken
  simp (maxDischargeDepth := 60)

/-! ## Verdicts and weighing actions (R28 to R64) -/

@[simp] theorem State.evaluate_changes {m : List Block} {s t : State} (a : Nat) (h : Changes m s t)
    (hm : [Block.we, .lc].all m.contains = true) : Changes m s (t.evaluate a) := by
  refine h.trans (.of (l := [Block.we, .lc]) ?_ hm)
  unfold State.evaluate
  dsimp only
  (repeat' split) <;> simp (maxDischargeDepth := 60)

@[simp] theorem State.weighOk_changes {m : List Block} {s t : State} (a code : Nat) (ch : Channel) (h : Changes m s t)
    (hm : [Block.we, .lc].all m.contains = true) : Changes m s (t.weighOk a code ch) := by
  refine h.trans (.of (l := [Block.we, .lc]) ?_ hm)
  unfold State.weighOk
  simp (maxDischargeDepth := 60)

@[simp] theorem State.takeSamples_changes {m : List Block} {s t : State} (a : Nat) (rs : List Reading) (h : Changes m s t)
    (hm : [Block.we, .lc].all m.contains = true) : Changes m s (t.takeSamples a rs) := by
  refine h.trans (.of (l := [Block.we, .lc]) ?_ hm)
  unfold State.takeSamples
  simp (maxDischargeDepth := 60)

@[simp] theorem State.takeZero_changes {m : List Block} {s t : State} (a : Nat) (h : Changes m s t)
    (hm : [Block.we, .lc].all m.contains = true) : Changes m s (t.takeZero a) := by
  refine h.trans (.of (l := [Block.we, .lc]) ?_ hm)
  unfold State.takeZero
  dsimp only
  (repeat' split) <;> simp (maxDischargeDepth := 60)

@[simp] theorem State.takeTare_changes {m : List Block} {s t : State} (a : Nat) (h : Changes m s t)
    (hm : [Block.we, .lc].all m.contains = true) : Changes m s (t.takeTare a) := by
  refine h.trans (.of (l := [Block.we, .lc]) ?_ hm)
  unfold State.takeTare
  dsimp only
  (repeat' split) <;> simp (maxDischargeDepth := 60)

@[simp] theorem State.takeClrtare_changes {m : List Block} {s t : State} (a : Nat) (h : Changes m s t)
    (hm : [Block.we, .lc].all m.contains = true) : Changes m s (t.takeClrtare a) := by
  refine h.trans (.of (l := [Block.we, .lc]) ?_ hm)
  unfold State.takeClrtare
  simp (maxDischargeDepth := 60)

@[simp] theorem State.takePtare_changes {m : List Block} {s t : State} (a g : Nat) (h : Changes m s t)
    (hm : [Block.we, .lc].all m.contains = true) : Changes m s (t.takePtare a g) := by
  refine h.trans (.of (l := [Block.we, .lc]) ?_ hm)
  unfold State.takePtare
  dsimp only
  (repeat' split) <;> simp (maxDischargeDepth := 60)

@[simp] theorem State.takeQty_changes {m : List Block} {s t : State} (a n : Nat) (h : Changes m s t)
    (hm : [Block.we, .lc].all m.contains = true) : Changes m s (t.takeQty a n) := by
  refine h.trans (.of (l := [Block.we, .lc]) ?_ hm)
  unfold State.takeQty
  dsimp only
  (repeat' split) <;> simp (maxDischargeDepth := 60)

@[simp] theorem State.stnConfig_changes {m : List Block} {s t : State} (body : List Byte) (h : Changes m s t)
    (hm : [Block.we].all m.contains = true) : Changes m s (t.stnConfig body).1 := by
  refine h.trans (.of (l := [Block.we]) ?_ hm)
  unfold State.stnConfig
  dsimp only
  (repeat' split) <;> simp (maxDischargeDepth := 60)

/-! ## Pins, copies and changes in flight (R72 to R101) -/

@[simp] theorem State.leavePinSet_changes {m : List Block} {s t : State} (a n : Nat) (h : Changes m s t)
    (hm : [Block.art].all m.contains = true) : Changes m s (t.leavePinSet a n) := by
  refine h.trans (.of (l := [Block.art]) ?_ hm)
  unfold State.leavePinSet
  simp (maxDischargeDepth := 60)

@[simp] theorem State.unpin_changes {m : List Block} {s t : State} (a : Nat) (h : Changes m s t)
    (hm : [Block.we, .art].all m.contains = true) : Changes m s (t.unpin a) := by
  refine h.trans (.of (l := [Block.we, .art]) ?_ hm)
  unfold State.unpin
  (repeat' split) <;> simp (maxDischargeDepth := 60)

@[simp] theorem State.releasePin_changes {m : List Block} {s t : State} (a : Nat) (h : Changes m s t)
    (hm : [Block.we, .art, .lc].all m.contains = true) : Changes m s (t.releasePin a) := by
  refine h.trans (.of (l := [Block.we, .art, .lc]) ?_ hm)
  unfold State.releasePin
  (repeat' split) <;> simp (maxDischargeDepth := 60)

@[simp] theorem State.cancelPin_changes {m : List Block} {s t : State} (a : Nat) (h : Changes m s t)
    (hm : [Block.we, .art].all m.contains = true) : Changes m s (t.cancelPin a) := by
  refine h.trans (.of (l := [Block.we, .art]) ?_ hm)
  unfold State.cancelPin
  simp (maxDischargeDepth := 60)

@[simp] theorem State.leaveHolders_changes {m : List Block} {s t : State} (a n : Nat) (h : Changes m s t)
    (hm : [Block.art].all m.contains = true) : Changes m s (t.leaveHolders a n) := by
  refine h.trans (.of (l := [Block.art]) ?_ hm)
  unfold State.leaveHolders
  simp (maxDischargeDepth := 60)

@[simp] theorem State.removeCopy_changes {m : List Block} {s t : State} (a n : Nat) (h : Changes m s t)
    (hm : [Block.cd, .art].all m.contains = true) : Changes m s (t.removeCopy a n) := by
  refine h.trans (.of (l := [Block.cd, .art]) ?_ hm)
  unfold State.removeCopy
  simp (maxDischargeDepth := 60)

@[simp] theorem State.markPurging_changes {m : List Block} {s t : State} (a n : Nat) (h : Changes m s t)
    (hm : [Block.cd].all m.contains = true) : Changes m s (t.markPurging a n) := by
  refine h.trans (.of (l := [Block.cd]) ?_ hm)
  unfold State.markPurging
  simp (maxDischargeDepth := 60)

@[simp] theorem State.offerPurge_changes {m : List Block} {s t : State} (a n : Nat) (h : Changes m s t)
    (hm : [Block.lc, .cd, .art].all m.contains = true) : Changes m s (t.offerPurge a n).1 := by
  refine h.trans (.of (l := [Block.lc, .cd, .art]) ?_ hm)
  unfold State.offerPurge
  dsimp only
  (repeat' split) <;> simp (maxDischargeDepth := 60)

@[simp] theorem State.emptyMap_changes {m : List Block} {s t : State} (a : Nat) (h : Changes m s t)
    (hm : [Block.cd, .art].all m.contains = true) : Changes m s (t.emptyMap a) := by
  refine h.trans (.of (l := [Block.cd, .art]) ?_ hm)
  unfold State.emptyMap
  simp (maxDischargeDepth := 60)

@[simp] theorem State.closeChange_changes {m : List Block} {s t : State} (n : Nat) (h : Changes m s t)
    (hm : [Block.cd, .art].all m.contains = true) : Changes m s (t.closeChange n) := by
  refine h.trans (.of (l := [Block.cd, .art]) ?_ hm)
  unfold State.closeChange
  simp (maxDischargeDepth := 60)

@[simp] theorem State.noteSettled_changes {m : List Block} {s t : State} (c : Change) (x y z : Nat) (h : Changes m s t)
    (hm : [Block.op].all m.contains = true) : Changes m s (t.noteSettled c x y z) := by
  refine h.trans (.of (l := [Block.op]) ?_ hm)
  unfold State.noteSettled
  simp (maxDischargeDepth := 60)

@[simp] theorem State.settleCheck_changes {m : List Block} {s t : State} (n : Nat) (h : Changes m s t)
    (hm : [Block.cd, .art, .op].all m.contains = true) : Changes m s (t.settleCheck n) := by
  refine h.trans (.of (l := [Block.cd, .art, .op]) ?_ hm)
  unfold State.settleCheck
  (repeat' split) <;> simp (maxDischargeDepth := 60)

@[simp] theorem State.emptyCheck_changes {m : List Block} {s t : State} (n : Nat) (h : Changes m s t)
    (hm : [Block.art].all m.contains = true) : Changes m s (t.emptyCheck n) := by
  refine h.trans (.of (l := [Block.art]) ?_ hm)
  unfold State.emptyCheck
  dsimp only
  (repeat' split) <;> simp (maxDischargeDepth := 60)

@[simp] theorem State.finish_changes {m : List Block} {s t : State} (l : List Nat) (h : Changes m s t)
    (hm : [Block.cd, .art, .op].all m.contains = true) : Changes m s (t.finish l) := by
  refine h.trans (.of (l := [Block.cd, .art, .op]) ?_ hm)
  unfold State.finish
  simp (maxDischargeDepth := 60)

@[simp] theorem State.purgeHolders_changes {m : List Block} {s t : State} (n : Nat) (l : List Nat) (h : Changes m s t)
    (hm : [Block.lc, .cd, .art].all m.contains = true) : Changes m s (t.purgeHolders n l).1 := by
  refine h.trans (.of (l := [Block.lc, .cd, .art]) ?_ hm)
  clear h hm
  induction l generalizing t with
  | nil => exact Changes.refl _ _
  | cons x rest ih =>
    have ih' {u v : State} (k : Changes [Block.lc, .cd, .art] u v) : Changes [Block.lc, .cd, .art] u (v.purgeHolders n rest).1 := k.trans ih
    unfold State.purgeHolders
    dsimp only
    (repeat' split) <;> simp (maxDischargeDepth := 60) [ih']

@[simp] theorem State.openChange_changes {m : List Block} {s t : State} (n : Nat) (v : ChangeKind) (old : Nat) (h : Changes m s t)
    (hm : [Block.lc, .cd, .art, .op].all m.contains = true) : Changes m s (t.openChange n v old) := by
  refine h.trans (.of (l := [Block.lc, .cd, .art, .op]) ?_ hm)
  unfold State.openChange
  simp (maxDischargeDepth := 60)

@[simp] theorem State.pin_changes {m : List Block} {s t : State} (a : Nat) (p : Snapshot) (h : Changes m s t)
    (hm : [Block.we, .art].all m.contains = true) : Changes m s (t.pin a p) := by
  refine h.trans (.of (l := [Block.we, .art]) ?_ hm)
  unfold State.pin
  simp (maxDischargeDepth := 60)

@[simp] theorem State.updateCopy_changes {m : List Block} {s t : State} (a : Nat) (p : Snapshot) (h : Changes m s t)
    (hm : [Block.lc, .cd, .art].all m.contains = true) : Changes m s (t.updateCopy a p).1 := by
  refine h.trans (.of (l := [Block.lc, .cd, .art]) ?_ hm)
  unfold State.updateCopy
  dsimp only
  (repeat' split) <;> simp (maxDischargeDepth := 60)

@[simp] theorem State.carrySelect_changes {m : List Block} {s t : State} (a : Nat) (p : Snapshot) (h : Changes m s t)
    (hm : [Block.we, .art, .lc, .cd, .op].all m.contains = true) : Changes m s (t.carrySelect a p) := by
  refine h.trans (.of (l := [Block.we, .art, .lc, .cd, .op]) ?_ hm)
  unfold State.carrySelect
  dsimp only
  (repeat' split) <;> simp (maxDischargeDepth := 60)

@[simp] theorem State.takeSelect_changes {m : List Block} {s t : State} (a n : Nat) (h : Changes m s t)
    (hm : [Block.we, .art, .lc, .cd, .op].all m.contains = true) : Changes m s (t.takeSelect a n) := by
  refine h.trans (.of (l := [Block.we, .art, .lc, .cd, .op]) ?_ hm)
  unfold State.takeSelect
  (repeat' split) <;> simp (maxDischargeDepth := 60)

@[simp] theorem State.takeClear_changes {m : List Block} {s t : State} (a : Nat) (h : Changes m s t)
    (hm : [Block.we, .art, .lc, .cd, .op].all m.contains = true) : Changes m s (t.takeClear a) := by
  refine h.trans (.of (l := [Block.we, .art, .lc, .cd, .op]) ?_ hm)
  unfold State.takeClear
  simp (maxDischargeDepth := 60)

@[simp] theorem State.takePurged_changes {m : List Block} {s t : State} (a : Nat) (n : Option Nat) (h : Changes m s t)
    (hm : [Block.cd, .art, .op].all m.contains = true) : Changes m s (t.takePurged a n) := by
  refine h.trans (.of (l := [Block.cd, .art, .op]) ?_ hm)
  unfold State.takePurged
  (repeat' split) <;> simp (maxDischargeDepth := 60)

/-! ## The article table (R67 to R82) -/

@[simp] theorem State.artCreate_changes {m : List Block} {s t : State} (body : List Byte) (h : Changes m s t)
    (hm : [Block.art].all m.contains = true) : Changes m s (t.artCreate body).1 := by
  refine h.trans (.of (l := [Block.art]) ?_ hm)
  unfold State.artCreate
  dsimp only
  (repeat' split) <;> simp (maxDischargeDepth := 60)

@[simp] theorem State.changeArticle_changes {m : List Block} {s t : State} (n : Nat) (c : Content) (h : Changes m s t)
    (hm : [Block.art, .lc, .cd, .op].all m.contains = true) : Changes m s (t.changeArticle n c) := by
  refine h.trans (.of (l := [Block.art, .lc, .cd, .op]) ?_ hm)
  unfold State.changeArticle
  simp (maxDischargeDepth := 60)

@[simp] theorem State.artChange_changes {m : List Block} {s t : State} (body : List Byte) (h : Changes m s t)
    (hm : [Block.art, .lc, .cd, .op].all m.contains = true) : Changes m s (t.artChange body).1 := by
  refine h.trans (.of (l := [Block.art, .lc, .cd, .op]) ?_ hm)
  unfold State.artChange
  dsimp only
  (repeat' split) <;> simp (maxDischargeDepth := 60)

@[simp] theorem State.artRetire_changes {m : List Block} {s t : State} (body : List Byte) (h : Changes m s t)
    (hm : [Block.art, .lc, .cd, .op].all m.contains = true) : Changes m s (t.artRetire body).1 := by
  refine h.trans (.of (l := [Block.art, .lc, .cd, .op]) ?_ hm)
  unfold State.artRetire
  dsimp only
  (repeat' split) <;> simp (maxDischargeDepth := 60)

@[simp] theorem State.artRead_changes {s t : State} {m : List Block} (body : List Byte) (h : Changes m s t) : Changes m s (t.artRead body).1 := by
  unfold State.artRead
  (repeat' split) <;> exact h

@[simp] theorem State.takeOverride_changes {m : List Block} {s t : State} (a n price : Nat) (h : Changes m s t)
    (hm : [Block.art, .lc, .cd, .op].all m.contains = true) : Changes m s (t.takeOverride a n price) := by
  refine h.trans (.of (l := [Block.art, .lc, .cd, .op]) ?_ hm)
  unfold State.takeOverride
  dsimp only
  (repeat' split) <;> simp (maxDischargeDepth := 60)

/-! ## Totals and watch channels (R164 to R180) -/

@[simp] theorem State.setLiveBank_changes {m : List Block} {s t : State} (b : Bank) (h : Changes m s t)
    (hm : [Block.tu].all m.contains = true) : Changes m s (t.setLiveBank b) := by
  refine h.trans (.of (l := [Block.tu]) ?_ hm)
  unfold State.setLiveBank
  (repeat' split) <;> simp (maxDischargeDepth := 60)

@[simp] theorem State.account_changes {m : List Block} {s t : State} (cause ticket : Nat) (f : Posting → Posting) (h : Changes m s t)
    (hm : [Block.tu, .op].all m.contains = true) : Changes m s (t.account cause ticket f) := by
  refine h.trans (.of (l := [Block.tu, .op]) ?_ hm)
  unfold State.account
  dsimp only
  (repeat' split) <;> simp (maxDischargeDepth := 60)

@[simp] theorem State.post_changes {m : List Block} {s t : State} (k : Ticket) (a : Nat) (h : Changes m s t)
    (hm : [Block.tu, .op].all m.contains = true) : Changes m s (t.post k a) := by
  refine h.trans (.of (l := [Block.tu, .op]) ?_ hm)
  unfold State.post
  simp (maxDischargeDepth := 60)

@[simp] theorem State.accountAbandoned_changes {m : List Block} {s t : State} (k : Ticket) (h : Changes m s t)
    (hm : [Block.tu, .op].all m.contains = true) : Changes m s (t.accountAbandoned k) := by
  refine h.trans (.of (l := [Block.tu, .op]) ?_ hm)
  unfold State.accountAbandoned
  simp (maxDischargeDepth := 60)

@[simp] theorem State.totClose_changes {m : List Block} {s t : State} (body : List Byte) (h : Changes m s t)
    (hm : [Block.tu].all m.contains = true) : Changes m s (t.totClose body).1 := by
  refine h.trans (.of (l := [Block.tu]) ?_ hm)
  unfold State.totClose
  dsimp only
  (repeat' split) <;> simp (maxDischargeDepth := 60)

@[simp] theorem State.totClear_changes {m : List Block} {s t : State} (body : List Byte) (h : Changes m s t)
    (hm : [Block.tu].all m.contains = true) : Changes m s (t.totClear body).1 := by
  refine h.trans (.of (l := [Block.tu]) ?_ hm)
  unfold State.totClear
  dsimp only
  (repeat' split) <;> simp (maxDischargeDepth := 60)

@[simp] theorem State.wchSet_changes {m : List Block} {s t : State} (body : List Byte) (h : Changes m s t)
    (hm : [Block.wu].all m.contains = true) : Changes m s (t.wchSet body).1 := by
  refine h.trans (.of (l := [Block.wu]) ?_ hm)
  unfold State.wchSet
  dsimp only
  (repeat' split) <;> simp (maxDischargeDepth := 60)

@[simp] theorem State.noteMatches_changes {m : List Block} {s t : State} (r : WatchResult) (ev : WatchEvent) (outcome scale clerk ticket article price p : Nat) (h : Changes m s t)
    (hm : [Block.op].all m.contains = true) : Changes m s (t.noteMatches r ev outcome scale clerk ticket article price p) := by
  refine h.trans (.of (l := [Block.op]) ?_ hm)
  unfold State.noteMatches
  dsimp only
  (repeat' split) <;> simp (maxDischargeDepth := 60)

@[simp] theorem State.totRead_changes {s t : State} {m : List Block} (body : List Byte) (h : Changes m s t) : Changes m s (t.totRead body).1 := by
  unfold State.totRead
  dsimp only
  (repeat' split) <;> exact h

@[simp] theorem State.wchRead_changes {s t : State} {m : List Block} (body : List Byte) (h : Changes m s t) : Changes m s (t.wchRead body).1 := by
  unfold State.wchRead
  (repeat' split) <;> exact h

/-! ## Clerks and tickets (R108 to R131) -/

@[simp] theorem State.mirror_changes {m : List Block} {s t : State} (a : Nat) (c x : Option Nat) (h : Changes m s t)
    (hm : [Block.we].all m.contains = true) : Changes m s (t.mirror a c x) := by
  refine h.trans (.of (l := [Block.we]) ?_ hm)
  unfold State.mirror
  simp (maxDischargeDepth := 60)

@[simp] theorem State.setActive_changes {m : List Block} {s t : State} (c : Nat) (x : Option Nat) (h : Changes m s t)
    (hm : [Block.sc, .we].all m.contains = true) : Changes m s (t.setActive c x) := by
  refine h.trans (.of (l := [Block.sc, .we]) ?_ hm)
  unfold State.setActive
  dsimp only
  (repeat' split) <;> simp (maxDischargeDepth := 60)

@[simp] theorem State.deactivate_changes {m : List Block} {s t : State} (k : Ticket) (h : Changes m s t)
    (hm : [Block.sc, .we].all m.contains = true) : Changes m s (t.deactivate k) := by
  refine h.trans (.of (l := [Block.sc, .we]) ?_ hm)
  unfold State.deactivate
  (repeat' split) <;> simp (maxDischargeDepth := 60)

@[simp] theorem State.logoutScale_changes {m : List Block} {s t : State} (a : Nat) (h : Changes m s t)
    (hm : [Block.sc, .we].all m.contains = true) : Changes m s (t.logoutScale a) := by
  refine h.trans (.of (l := [Block.sc, .we]) ?_ hm)
  unfold State.logoutScale
  (repeat' split) <;> simp (maxDischargeDepth := 60)

@[simp] theorem State.logoutRelease_changes {m : List Block} {s t : State} (a : Nat) (h : Changes m s t)
    (hm : [Block.sc, .we, .art, .lc].all m.contains = true) : Changes m s (t.logoutRelease a) := by
  refine h.trans (.of (l := [Block.sc, .we, .art, .lc]) ?_ hm)
  unfold State.logoutRelease
  (repeat' split) <;> simp (maxDischargeDepth := 60)

@[simp] theorem State.carryLogin_changes {m : List Block} {s t : State} (a c : Nat) (h : Changes m s t)
    (hm : [Block.sc, .we, .art, .lc, .cd, .op].all m.contains = true) : Changes m s (t.carryLogin a c) := by
  refine h.trans (.of (l := [Block.sc, .we, .art, .lc, .cd, .op]) ?_ hm)
  unfold State.carryLogin
  dsimp only
  (repeat' split) <;> simp (maxDischargeDepth := 60)

@[simp] theorem State.takeLogin_changes {m : List Block} {s t : State} (a c : Nat) (h : Changes m s t)
    (hm : [Block.sc, .we, .art, .lc, .cd, .op].all m.contains = true) : Changes m s (t.takeLogin a c) := by
  refine h.trans (.of (l := [Block.sc, .we, .art, .lc, .cd, .op]) ?_ hm)
  unfold State.takeLogin
  (repeat' split) <;> simp (maxDischargeDepth := 60)

@[simp] theorem State.takeLogout_changes {m : List Block} {s t : State} (a : Nat) (h : Changes m s t)
    (hm : [Block.sc, .we, .art, .lc, .cd, .op].all m.contains = true) : Changes m s (t.takeLogout a) := by
  refine h.trans (.of (l := [Block.sc, .we, .art, .lc, .cd, .op]) ?_ hm)
  unfold State.takeLogout
  simp (maxDischargeDepth := 60)

@[simp] theorem State.dropRef_changes {m : List Block} {s t : State} (i : Item) (h : Changes m s t)
    (hm : [Block.art].all m.contains = true) : Changes m s (t.dropRef i) := by
  refine h.trans (.of (l := [Block.art]) ?_ hm)
  unfold State.dropRef
  simp (maxDischargeDepth := 60)

@[simp] theorem State.removeTicket_changes {m : List Block} {s t : State} (k : Ticket) (h : Changes m s t)
    (hm : [Block.sc, .we, .art].all m.contains = true) : Changes m s (t.removeTicket k) := by
  refine h.trans (.of (l := [Block.sc, .we, .art]) ?_ hm)
  unfold State.removeTicket
  simp (maxDischargeDepth := 60)

@[simp] theorem State.abandon_changes {m : List Block} {s t : State} (k : Ticket) (h : Changes m s t)
    (hm : [Block.sc, .we, .art, .tu, .op].all m.contains = true) : Changes m s (t.abandon k) := by
  refine h.trans (.of (l := [Block.sc, .we, .art, .tu, .op]) ?_ hm)
  unfold State.abandon
  simp (maxDischargeDepth := 60)

@[simp] theorem State.park_changes {m : List Block} {s t : State} (k : Ticket) (h : Changes m s t)
    (hm : [Block.sc, .we].all m.contains = true) : Changes m s (t.park k) := by
  refine h.trans (.of (l := [Block.sc, .we]) ?_ hm)
  unfold State.park
  simp (maxDischargeDepth := 60)

@[simp] theorem State.releaseTicket_changes {m : List Block} {s t : State} (k : Ticket) (h : Changes m s t)
    (hm : [Block.sc].all m.contains = true) : Changes m s (t.releaseTicket k) := by
  refine h.trans (.of (l := [Block.sc]) ?_ hm)
  unfold State.releaseTicket
  simp (maxDischargeDepth := 60)

@[simp] theorem State.takeNew_changes {m : List Block} {s t : State} (a : Nat) (h : Changes m s t)
    (hm : [Block.sc, .we, .lc].all m.contains = true) : Changes m s (t.takeNew a) := by
  refine h.trans (.of (l := [Block.sc, .we, .lc]) ?_ hm)
  unfold State.takeNew
  dsimp only
  (repeat' split) <;> simp (maxDischargeDepth := 60)

@[simp] theorem State.switchTo_changes {m : List Block} {s t : State} (a c n : Nat) (h : Changes m s t)
    (hm : [Block.sc, .we, .lc].all m.contains = true) : Changes m s (t.switchTo a c n) := by
  refine h.trans (.of (l := [Block.sc, .we, .lc]) ?_ hm)
  unfold State.switchTo
  dsimp only
  (repeat' split) <;> simp (maxDischargeDepth := 60)

@[simp] theorem State.takeSwitch_changes {m : List Block} {s t : State} (a n : Nat) (h : Changes m s t)
    (hm : [Block.sc, .we, .lc].all m.contains = true) : Changes m s (t.takeSwitch a n) := by
  refine h.trans (.of (l := [Block.sc, .we, .lc]) ?_ hm)
  unfold State.takeSwitch
  (repeat' split) <;> simp (maxDischargeDepth := 60)

@[simp] theorem State.addRef_changes {m : List Block} {s t : State} (n : Nat) (h : Changes m s t)
    (hm : [Block.art].all m.contains = true) : Changes m s (t.addRef n) := by
  refine h.trans (.of (l := [Block.art]) ?_ hm)
  unfold State.addRef
  simp (maxDischargeDepth := 60)

@[simp] theorem State.carryAdd_changes {m : List Block} {s t : State} (a : Nat) (k : Ticket) (i : Item) (x y : Bool) (h : Changes m s t)
    (hm : [Block.sc, .art, .we, .lc, .cd, .op].all m.contains = true) : Changes m s (t.carryAdd a k i x y) := by
  refine h.trans (.of (l := [Block.sc, .art, .we, .lc, .cd, .op]) ?_ hm)
  unfold State.carryAdd
  simp (maxDischargeDepth := 60)

@[simp] theorem State.watchedAdd_changes {m : List Block} {s t : State} (a : Nat) (k : Ticket) (i : Item) (h : Changes m s t)
    (hm : [Block.sc, .art, .we, .lc, .cd, .op, .wu].all m.contains = true) : Changes m s (t.watchedAdd a k i) := by
  refine h.trans (.of (l := [Block.sc, .art, .we, .lc, .cd, .op, .wu]) ?_ hm)
  unfold State.watchedAdd
  dsimp only
  (repeat' split) <;> simp (maxDischargeDepth := 60)

@[simp] theorem State.addTo_changes {m : List Block} {s t : State} (a st : Nat) (k : Ticket) (h : Changes m s t)
    (hm : [Block.sc, .art, .we, .lc, .cd, .op, .wu].all m.contains = true) : Changes m s (t.addTo a st k) := by
  refine h.trans (.of (l := [Block.sc, .art, .we, .lc, .cd, .op, .wu]) ?_ hm)
  unfold State.addTo
  (repeat' split) <;> simp (maxDischargeDepth := 60)

@[simp] theorem State.takeAdd_changes {m : List Block} {s t : State} (a st : Nat) (h : Changes m s t)
    (hm : [Block.sc, .art, .we, .lc, .cd, .op, .wu].all m.contains = true) : Changes m s (t.takeAdd a st) := by
  refine h.trans (.of (l := [Block.sc, .art, .we, .lc, .cd, .op, .wu]) ?_ hm)
  unfold State.takeAdd
  (repeat' split) <;> simp (maxDischargeDepth := 60)

@[simp] theorem State.carryVoid_changes {m : List Block} {s t : State} (a : Nat) (k : Ticket) (i : Item) (p : Nat) (x y : Bool) (h : Changes m s t)
    (hm : [Block.sc, .lc].all m.contains = true) : Changes m s (t.carryVoid a k i p x y) := by
  refine h.trans (.of (l := [Block.sc, .lc]) ?_ hm)
  unfold State.carryVoid
  simp (maxDischargeDepth := 60)

@[simp] theorem State.watchedVoid_changes {m : List Block} {s t : State} (a : Nat) (k : Ticket) (i : Item) (p : Nat) (h : Changes m s t)
    (hm : [Block.sc, .lc, .wu, .op].all m.contains = true) : Changes m s (t.watchedVoid a k i p) := by
  refine h.trans (.of (l := [Block.sc, .lc, .wu, .op]) ?_ hm)
  unfold State.watchedVoid
  dsimp only
  (repeat' split) <;> simp (maxDischargeDepth := 60)

@[simp] theorem State.takeVoidItem_changes {m : List Block} {s t : State} (a p : Nat) (h : Changes m s t)
    (hm : [Block.sc, .lc, .wu, .op].all m.contains = true) : Changes m s (t.takeVoidItem a p) := by
  refine h.trans (.of (l := [Block.sc, .lc, .wu, .op]) ?_ hm)
  unfold State.takeVoidItem
  (repeat' split) <;> simp (maxDischargeDepth := 60)

@[simp] theorem State.takeVoidTicket_changes {m : List Block} {s t : State} (a : Nat) (h : Changes m s t)
    (hm : [Block.sc, .we, .art, .tu, .op, .lc].all m.contains = true) : Changes m s (t.takeVoidTicket a) := by
  refine h.trans (.of (l := [Block.sc, .we, .art, .tu, .op, .lc]) ?_ hm)
  unfold State.takeVoidTicket
  (repeat' split) <;> simp (maxDischargeDepth := 60)

@[simp] theorem State.takeRelease_changes {m : List Block} {s t : State} (a n : Nat) (h : Changes m s t)
    (hm : [Block.sc, .lc].all m.contains = true) : Changes m s (t.takeRelease a n) := by
  refine h.trans (.of (l := [Block.sc, .lc]) ?_ hm)
  unfold State.takeRelease
  (repeat' split) <;> simp (maxDischargeDepth := 60)

@[simp] theorem State.clkEnrol_changes {m : List Block} {s t : State} (body : List Byte) (h : Changes m s t)
    (hm : [Block.sc].all m.contains = true) : Changes m s (t.clkEnrol body).1 := by
  refine h.trans (.of (l := [Block.sc]) ?_ hm)
  unfold State.clkEnrol
  dsimp only
  (repeat' split) <;> simp (maxDischargeDepth := 60)

@[simp] theorem State.removeClerk_changes {m : List Block} {s t : State} (c : Nat) (h : Changes m s t)
    (hm : [Block.sc, .we, .art, .lc, .cd, .op].all m.contains = true) : Changes m s (t.removeClerk c) := by
  refine h.trans (.of (l := [Block.sc, .we, .art, .lc, .cd, .op]) ?_ hm)
  unfold State.removeClerk
  (repeat' split) <;> simp (maxDischargeDepth := 60)

@[simp] theorem State.clkRemove_changes {m : List Block} {s t : State} (body : List Byte) (h : Changes m s t)
    (hm : [Block.sc, .we, .art, .lc, .cd, .op].all m.contains = true) : Changes m s (t.clkRemove body).1 := by
  refine h.trans (.of (l := [Block.sc, .we, .art, .lc, .cd, .op]) ?_ hm)
  unfold State.clkRemove
  dsimp only
  (repeat' split) <;> simp (maxDischargeDepth := 60)

@[simp] theorem State.clkRead_changes {s t : State} {m : List Block} (body : List Byte) (h : Changes m s t) : Changes m s (t.clkRead body).1 := by
  unfold State.clkRead
  dsimp only
  (repeat' split) <;> exact h

@[simp] theorem State.tktRead_changes {s t : State} {m : List Block} (body : List Byte) (h : Changes m s t) : Changes m s (t.tktRead body).1 := by
  unfold State.tktRead
  dsimp only
  (repeat' split) <;> exact h

@[simp] theorem State.tktCancel_changes {m : List Block} {s t : State} (body : List Byte) (h : Changes m s t)
    (hm : [Block.sc, .we, .art, .tu, .op].all m.contains = true) : Changes m s (t.tktCancel body).1 := by
  refine h.trans (.of (l := [Block.sc, .we, .art, .tu, .op]) ?_ hm)
  unfold State.tktCancel
  dsimp only
  (repeat' split) <;> simp (maxDischargeDepth := 60)

@[simp] theorem State.tktRelease_changes {m : List Block} {s t : State} (body : List Byte) (h : Changes m s t)
    (hm : [Block.sc].all m.contains = true) : Changes m s (t.tktRelease body).1 := by
  refine h.trans (.of (l := [Block.sc]) ?_ hm)
  unfold State.tktRelease
  dsimp only
  (repeat' split) <;> simp (maxDischargeDepth := 60)

/-! ## Print jobs (R134 to R147) -/

@[simp] theorem State.assignTag_changes {m : List Block} {s t : State} (a tag : Nat) (h : Changes m s t)
    (hm : [Block.sc].all m.contains = true) : Changes m s (t.assignTag a tag) := by
  refine h.trans (.of (l := [Block.sc]) ?_ hm)
  unfold State.assignTag
  simp (maxDischargeDepth := 60)

@[simp] theorem State.closeEmpty_changes {m : List Block} {s t : State} (a : Nat) (k : Ticket) (h : Changes m s t)
    (hm : [Block.sc, .we, .art, .lc].all m.contains = true) : Changes m s (t.closeEmpty a k) := by
  refine h.trans (.of (l := [Block.sc, .we, .art, .lc]) ?_ hm)
  unfold State.closeEmpty
  simp (maxDischargeDepth := 60)

@[simp] theorem State.closePrint_changes {m : List Block} {s t : State} (a : Nat) (k : Ticket) (h : Changes m s t)
    (hm : [Block.sc, .we, .lc].all m.contains = true) : Changes m s (t.closePrint a k) := by
  refine h.trans (.of (l := [Block.sc, .we, .lc]) ?_ hm)
  unfold State.closePrint
  simp (maxDischargeDepth := 60)

@[simp] theorem State.carryClose_changes {m : List Block} {s t : State} (a : Nat) (k : Ticket) (h : Changes m s t)
    (hm : [Block.sc, .we, .art, .lc].all m.contains = true) : Changes m s (t.carryClose a k) := by
  refine h.trans (.of (l := [Block.sc, .we, .art, .lc]) ?_ hm)
  unfold State.carryClose
  (repeat' split) <;> simp (maxDischargeDepth := 60)

@[simp] theorem State.takeClose_changes {m : List Block} {s t : State} (a : Nat) (h : Changes m s t)
    (hm : [Block.sc, .we, .art, .lc].all m.contains = true) : Changes m s (t.takeClose a) := by
  refine h.trans (.of (l := [Block.sc, .we, .art, .lc]) ?_ hm)
  unfold State.takeClose
  (repeat' split) <;> simp (maxDischargeDepth := 60)

@[simp] theorem State.carryLabel_changes {m : List Block} {s t : State} (a c : Nat) (p : Snapshot) (i : Item) (y : Bool) (h : Changes m s t)
    (hm : [Block.sc, .art, .lc, .we, .cd, .op].all m.contains = true) : Changes m s (t.carryLabel a c p i y) := by
  refine h.trans (.of (l := [Block.sc, .art, .lc, .we, .cd, .op]) ?_ hm)
  unfold State.carryLabel
  simp (maxDischargeDepth := 60)

@[simp] theorem State.watchedLabel_changes {m : List Block} {s t : State} (a c : Nat) (p : Snapshot) (i : Item) (h : Changes m s t)
    (hm : [Block.sc, .art, .lc, .we, .cd, .op, .wu].all m.contains = true) : Changes m s (t.watchedLabel a c p i) := by
  refine h.trans (.of (l := [Block.sc, .art, .lc, .we, .cd, .op, .wu]) ?_ hm)
  unfold State.watchedLabel
  dsimp only
  (repeat' split) <;> simp (maxDischargeDepth := 60)

@[simp] theorem State.carryProofLabel_changes {m : List Block} {s t : State} (a : Nat) (p : Snapshot) (i : Item) (h : Changes m s t)
    (hm : [Block.sc, .art, .lc, .we, .cd, .op].all m.contains = true) : Changes m s (t.carryProofLabel a p i) := by
  refine h.trans (.of (l := [Block.sc, .art, .lc, .we, .cd, .op]) ?_ hm)
  unfold State.carryProofLabel
  simp (maxDischargeDepth := 60)

@[simp] theorem State.takeLabel_changes {m : List Block} {s t : State} (a st : Nat) (h : Changes m s t)
    (hm : [Block.sc, .art, .lc, .we, .cd, .op, .wu].all m.contains = true) : Changes m s (t.takeLabel a st) := by
  refine h.trans (.of (l := [Block.sc, .art, .lc, .we, .cd, .op, .wu]) ?_ hm)
  unfold State.takeLabel
  (repeat' split) <;> simp (maxDischargeDepth := 60)

@[simp] theorem State.failJob_changes {m : List Block} {s t : State} (k : Ticket) (a tag cause : Nat) (h : Changes m s t)
    (hm : [Block.sc, .op].all m.contains = true) : Changes m s (t.failJob k a tag cause) := by
  refine h.trans (.of (l := [Block.sc, .op]) ?_ hm)
  unfold State.failJob
  simp (maxDischargeDepth := 60)

@[simp] theorem State.failJobs_changes {m : List Block} {s t : State} (a : Nat) (l : List Ticket) (h : Changes m s t)
    (hm : [Block.sc, .op].all m.contains = true) : Changes m s (t.failJobs a l) := by
  refine h.trans (.of (l := [Block.sc, .op]) ?_ hm)
  clear h hm
  induction l generalizing t with
  | nil => exact Changes.refl _ _
  | cons x rest ih =>
    have ih' {u v : State} (k : Changes [Block.sc, .op] u v) : Changes [Block.sc, .op] u (v.failJobs a rest) := k.trans ih
    unfold State.failJobs
    (repeat' split) <;> simp (maxDischargeDepth := 60) [ih']

@[simp] theorem State.unmatchedPrinted_changes {m : List Block} {s t : State} (a tag : Nat) (h : Changes m s t)
    (hm : [Block.sc].all m.contains = true) : Changes m s (t.unmatchedPrinted a tag) := by
  refine h.trans (.of (l := [Block.sc]) ?_ hm)
  unfold State.unmatchedPrinted
  dsimp only
  (repeat' split) <;> simp (maxDischargeDepth := 60)

@[simp] theorem State.takePrinted_changes {m : List Block} {s t : State} (a tag : Nat) (ok : Bool) (h : Changes m s t)
    (hm : [Block.sc, .we, .art, .tu, .op].all m.contains = true) : Changes m s (t.takePrinted a tag ok) := by
  refine h.trans (.of (l := [Block.sc, .we, .art, .tu, .op]) ?_ hm)
  unfold State.takePrinted
  (repeat' split) <;> simp (maxDischargeDepth := 60)

@[simp] theorem State.withdrawPrint_changes {m : List Block} {s t : State} (a tag : Nat) (h : Changes m s t)
    (hm : [Block.lc].all m.contains = true) : Changes m s (t.withdrawPrint a tag) := by
  refine h.trans (.of (l := [Block.lc]) ?_ hm)
  unfold State.withdrawPrint
  dsimp only
  (repeat' split) <;> simp (maxDischargeDepth := 60)

@[simp] theorem State.departJobs_changes {m : List Block} {s t : State} (a : Nat) (h : Changes m s t)
    (hm : [Block.sc, .op].all m.contains = true) : Changes m s (t.departJobs a) := by
  refine h.trans (.of (l := [Block.sc, .op]) ?_ hm)
  unfold State.departJobs
  simp (maxDischargeDepth := 60)

/-! ## The customer queue and the rush level (R149 to R161) -/

@[simp] theorem State.recompute_changes {m : List Block} {s t : State} (l : List Ticket) (h : Changes m s t)
    (hm : [Block.sc, .we].all m.contains = true) : Changes m s (t.recompute l) := by
  refine h.trans (.of (l := [Block.sc, .we]) ?_ hm)
  clear h hm
  induction l generalizing t with
  | nil => exact Changes.refl _ _
  | cons x rest ih =>
    have ih' {u v : State} (k : Changes [Block.sc, .we] u v) : Changes [Block.sc, .we] u (v.recompute rest) := k.trans ih
    unfold State.recompute
    dsimp only
    (repeat' split) <;> simp (maxDischargeDepth := 60) [ih']

@[simp] theorem State.changeLevel_changes {m : List Block} {s t : State} (v : RushLevel) (h : Changes m s t)
    (hm : [Block.qc, .sc, .we, .op].all m.contains = true) : Changes m s (t.changeLevel v) := by
  refine h.trans (.of (l := [Block.qc, .sc, .we, .op]) ?_ hm)
  unfold State.changeLevel
  simp (maxDischargeDepth := 60)

@[simp] theorem State.examine_changes {m : List Block} {s t : State} (h : Changes m s t)
    (hm : [Block.qc, .sc, .we, .op].all m.contains = true) : Changes m s t.examine := by
  refine h.trans (.of (l := [Block.qc, .sc, .we, .op]) ?_ hm)
  unfold State.examine
  (repeat' split) <;> simp (maxDischargeDepth := 60)

@[simp] theorem State.refuseTake_changes {m : List Block} {s t : State} (c : Nat) (h : Changes m s t)
    (hm : [Block.op, .lc].all m.contains = true) : Changes m s (t.refuseTake c) := by
  refine h.trans (.of (l := [Block.op, .lc]) ?_ hm)
  unfold State.refuseTake
  simp (maxDischargeDepth := 60)

@[simp] theorem State.issue_changes {m : List Block} {s t : State} (q : Nat) (h : Changes m s t)
    (hm : [Block.qc, .sc, .we, .op, .lc].all m.contains = true) : Changes m s (t.issue q) := by
  refine h.trans (.of (l := [Block.qc, .sc, .we, .op, .lc]) ?_ hm)
  unfold State.issue
  simp (maxDischargeDepth := 60)

@[simp] theorem State.takeTake_changes {m : List Block} {s t : State} (h : Changes m s t)
    (hm : [Block.qc, .sc, .we, .op, .lc].all m.contains = true) : Changes m s t.takeTake := by
  refine h.trans (.of (l := [Block.qc, .sc, .we, .op, .lc]) ?_ hm)
  unfold State.takeTake
  (repeat' split) <;> simp (maxDischargeDepth := 60)

@[simp] theorem State.carryNext_changes {m : List Block} {s t : State} (a c q : Nat) (r : List Nat) (h : Changes m s t)
    (hm : [Block.qc, .sc, .we, .op, .lc].all m.contains = true) : Changes m s (t.carryNext a c q r) := by
  refine h.trans (.of (l := [Block.qc, .sc, .we, .op, .lc]) ?_ hm)
  unfold State.carryNext
  simp (maxDischargeDepth := 60)

@[simp] theorem State.takeNext_changes {m : List Block} {s t : State} (a : Nat) (h : Changes m s t)
    (hm : [Block.qc, .sc, .we, .op, .lc].all m.contains = true) : Changes m s (t.takeNext a) := by
  refine h.trans (.of (l := [Block.qc, .sc, .we, .op, .lc]) ?_ hm)
  unfold State.takeNext
  (repeat' split) <;> simp (maxDischargeDepth := 60)

@[simp] theorem State.takeRecall_changes {m : List Block} {s t : State} (a : Nat) (h : Changes m s t)
    (hm : [Block.qc, .lc].all m.contains = true) : Changes m s (t.takeRecall a) := by
  refine h.trans (.of (l := [Block.qc, .lc]) ?_ hm)
  unfold State.takeRecall
  (repeat' split) <;> simp (maxDischargeDepth := 60)

@[simp] theorem State.carrySkip_changes {m : List Block} {s t : State} (a : Nat) (k : Ticket) (q : Nat) (h : Changes m s t)
    (hm : [Block.sc, .we, .art, .qc, .lc].all m.contains = true) : Changes m s (t.carrySkip a k q) := by
  refine h.trans (.of (l := [Block.sc, .we, .art, .qc, .lc]) ?_ hm)
  unfold State.carrySkip
  dsimp only
  (repeat' split) <;> simp (maxDischargeDepth := 60)

@[simp] theorem State.takeSkip_changes {m : List Block} {s t : State} (a : Nat) (h : Changes m s t)
    (hm : [Block.sc, .we, .art, .qc, .lc].all m.contains = true) : Changes m s (t.takeSkip a) := by
  refine h.trans (.of (l := [Block.sc, .we, .art, .qc, .lc]) ?_ hm)
  unfold State.takeSkip
  (repeat' split) <;> simp (maxDischargeDepth := 60)

@[simp] theorem State.queRead_changes {s t : State} {m : List Block} (body : List Byte) (h : Changes m s t) : Changes m s (t.queRead body).1 := by
  unfold State.queRead
  (repeat' split) <;> exact h

@[simp] theorem State.queReset_changes {m : List Block} {s t : State} (body : List Byte) (h : Changes m s t)
    (hm : [Block.qc, .sc, .we, .op, .lc].all m.contains = true) : Changes m s (t.queReset body).1 := by
  refine h.trans (.of (l := [Block.qc, .sc, .we, .op, .lc]) ?_ hm)
  unfold State.queReset
  dsimp only
  (repeat' split) <;> simp (maxDischargeDepth := 60)

/-! ## The counter line (R1 to R24) -/

@[simp] theorem State.beginVisit_changes {m : List Block} {s t : State} (a : Nat) (h : Changes m s t)
    (hm : [Block.lc].all m.contains = true) : Changes m s (t.beginVisit a) := by
  refine h.trans (.of (l := [Block.lc]) ?_ hm)
  unfold State.beginVisit
  dsimp only
  (repeat' split) <;> simp (maxDischargeDepth := 60)

@[simp] theorem State.beginSlot_changes {m : List Block} {s t : State} (h : Changes m s t)
    (hm : [Block.lc].all m.contains = true) : Changes m s t.beginSlot := by
  refine h.trans (.of (l := [Block.lc]) ?_ hm)
  unfold State.beginSlot
  (repeat' split) <;> simp (maxDischargeDepth := 60)

@[simp] theorem State.nextSlot_changes {m : List Block} {s t : State} (h : Changes m s t)
    (hm : [Block.lc].all m.contains = true) : Changes m s t.nextSlot := by
  refine h.trans (.of (l := [Block.lc]) ?_ hm)
  unfold State.nextSlot
  (repeat' split) <;> simp (maxDischargeDepth := 60)

@[simp] theorem State.departScale_changes {m : List Block} {s t : State} (a : Nat) (h : Changes m s t)
    (hm : [Block.sc, .we, .art, .cd, .op].all m.contains = true) : Changes m s (t.departScale a) := by
  refine h.trans (.of (l := [Block.sc, .we, .art, .cd, .op]) ?_ hm)
  unfold State.departScale
  simp (maxDischargeDepth := 60)

@[simp] theorem State.leaveService_changes {m : List Block} {s t : State} (a : Nat) (v : StationState) (h : Changes m s t)
    (hm : [Block.lc, .sc, .we, .art, .cd, .op].all m.contains = true) : Changes m s (t.leaveService a v) := by
  refine h.trans (.of (l := [Block.lc, .sc, .we, .art, .cd, .op]) ?_ hm)
  unfold State.leaveService
  dsimp only
  (repeat' split) <;> simp (maxDischargeDepth := 60)

@[simp] theorem State.shiftService_changes {m : List Block} {s t : State} (a : Nat) (v : StationState) (h : Changes m s t)
    (hm : [Block.lc, .cd, .art, .we].all m.contains = true) : Changes m s (t.shiftService a v) := by
  refine h.trans (.of (l := [Block.lc, .cd, .art, .we]) ?_ hm)
  unfold State.shiftService
  dsimp only
  (repeat' split) <;> simp (maxDischargeDepth := 60)

@[simp] theorem State.moveInService_changes {m : List Block} {s t : State} (a : Nat) (v : StationState) (h : Changes m s t)
    (hm : [Block.lc, .cd, .art, .we, .op].all m.contains = true) : Changes m s (t.moveInService a v) := by
  refine h.trans (.of (l := [Block.lc, .cd, .art, .we, .op]) ?_ hm)
  unfold State.moveInService
  simp (maxDischargeDepth := 60)

@[simp] theorem State.scoreDetach_changes {m : List Block} {s t : State} (a : Nat) (h : Changes m s t)
    (hm : [Block.lc, .cd, .art, .we, .op].all m.contains = true) : Changes m s (t.scoreDetach a) := by
  refine h.trans (.of (l := [Block.lc, .cd, .art, .we, .op]) ?_ hm)
  unfold State.scoreDetach
  dsimp only
  (repeat' split) <;> simp (maxDischargeDepth := 60)

@[simp] theorem State.raiseScore_changes {m : List Block} {s t : State} (a : Nat) (h : Changes m s t)
    (hm : [Block.lc, .cd, .art, .we, .op].all m.contains = true) : Changes m s (t.raiseScore a) := by
  refine h.trans (.of (l := [Block.lc, .cd, .art, .we, .op]) ?_ hm)
  unfold State.raiseScore
  dsimp only
  (repeat' split) <;> simp (maxDischargeDepth := 60)

@[simp] theorem State.lowerScore_changes {m : List Block} {s t : State} (a : Nat) (h : Changes m s t)
    (hm : [Block.lc].all m.contains = true) : Changes m s (t.lowerScore a) := by
  refine h.trans (.of (l := [Block.lc]) ?_ hm)
  unfold State.lowerScore
  dsimp only
  (repeat' split) <;> simp (maxDischargeDepth := 60)

@[simp] theorem State.goAbsent_changes {m : List Block} {s t : State} (a : Nat) (h : Changes m s t)
    (hm : [Block.lc, .sc, .we, .art, .cd, .op].all m.contains = true) : Changes m s (t.goAbsent a) := by
  refine h.trans (.of (l := [Block.lc, .sc, .we, .art, .cd, .op]) ?_ hm)
  unfold State.goAbsent
  (repeat' split) <;> simp (maxDischargeDepth := 60)

@[simp] theorem State.miss_changes {m : List Block} {s t : State} (a : Nat) (h : Changes m s t)
    (hm : [Block.lc, .sc, .we, .art, .cd, .op].all m.contains = true) : Changes m s (t.miss a) := by
  refine h.trans (.of (l := [Block.lc, .sc, .we, .art, .cd, .op]) ?_ hm)
  unfold State.miss
  dsimp only
  (repeat' split) <;> simp (maxDischargeDepth := 60)

@[simp] theorem State.failedCheck_changes {m : List Block} {s t : State} (v : Visit) (h : Changes m s t)
    (hm : [Block.lc, .sc, .we, .art, .cd, .op].all m.contains = true) : Changes m s (t.failedCheck v) := by
  refine h.trans (.of (l := [Block.lc, .sc, .we, .art, .cd, .op]) ?_ hm)
  unfold State.failedCheck
  dsimp only
  (repeat' split) <;> simp (maxDischargeDepth := 60)

@[simp] theorem State.takeUnknown_changes {m : List Block} {s t : State} (a c : Nat) (h : Changes m s t)
    (hm : [Block.lc].all m.contains = true) : Changes m s (t.takeUnknown a c) := by
  refine h.trans (.of (l := [Block.lc]) ?_ hm)
  unfold State.takeUnknown
  (repeat' split) <;> simp (maxDischargeDepth := 60)

@[simp] theorem State.takeAction_changes {m : List Block} {s t : State} (a : Nat) (act : Action) (h : Changes m s t)
    (hm : [Block.lc, .we, .art, .cd, .sc, .qc, .wu, .tu, .op].all m.contains = true) : Changes m s (t.takeAction a act) := by
  refine h.trans (.of (l := [Block.lc, .we, .art, .cd, .sc, .qc, .wu, .tu, .op]) ?_ hm)
  unfold State.takeAction
  (repeat' split) <;> simp (maxDischargeDepth := 60)

@[simp] theorem State.deliver_changes {m : List Block} {s t : State} {f : State → State} (a : Nat) (k : StationKind)
    (room : Bool) (h : Changes m s t) (hm : [Block.lc].all m.contains = true) (hf : ∀ u, Changes m u (f u)) :
    Changes m s (t.deliver a k room f) := by
  unfold State.deliver
  split
  · exact (State.markTaken_changes a h hm).trans (hf _)
  · exact h

@[simp] theorem State.deliverAction_changes {m : List Block} {s t : State} {f : State → State} (a : Nat)
    (h : Changes m s t) (hm : [Block.lc].all m.contains = true) (hf : ∀ u, Changes m u (f u)) :
    Changes m s (t.deliverAction a f) := by
  unfold State.deliverAction
  split
  · exact State.deliver_changes a _ _ h hm hf
  · exact h

@[simp] theorem State.takeMessage_changes {m : List Block} {s t : State} (a : Nat) (x : UpMsg) (h : Changes m s t)
    (hm : [Block.lc, .we, .art, .cd, .sc, .qc, .wu, .tu, .op].all m.contains = true) : Changes m s (t.takeMessage a x) := by
  refine h.trans (.of (l := [Block.lc, .we, .art, .cd, .sc, .qc, .wu, .tu, .op]) ?_ hm)
  unfold State.takeMessage
  (repeat' split) <;> simp (maxDischargeDepth := 60)

@[simp] theorem State.completeJoin_changes {m : List Block} {s t : State} (a : Nat) (v : StationState) (h : Changes m s t)
    (hm : [Block.lc, .op].all m.contains = true) : Changes m s (t.completeJoin a v) := by
  refine h.trans (.of (l := [Block.lc, .op]) ?_ hm)
  unfold State.completeJoin
  dsimp only
  (repeat' split) <;> simp (maxDischargeDepth := 60)

@[simp] theorem State.removeHead_changes {m : List Block} {s t : State} (a : Nat) (e : Entry) (r : List Entry) (h : Changes m s t)
    (hm : [Block.lc, .op].all m.contains = true) : Changes m s (t.removeHead a e r) := by
  refine h.trans (.of (l := [Block.lc, .op]) ?_ hm)
  unfold State.removeHead
  dsimp only
  (repeat' split) <;> simp (maxDischargeDepth := 60)

@[simp] theorem State.acknowledge_changes {m : List Block} {s t : State} (a : Nat) (d : Bool) (h : Changes m s t)
    (hm : [Block.lc, .op].all m.contains = true) : Changes m s (t.acknowledge a d) := by
  refine h.trans (.of (l := [Block.lc, .op]) ?_ hm)
  unfold State.acknowledge
  dsimp only
  (repeat' split) <;> simp (maxDischargeDepth := 60)

@[simp] theorem State.applyHold_changes {m : List Block} {s t : State} (a : Nat) (y : Bool) (h : Changes m s t)
    (hm : [Block.lc].all m.contains = true) : Changes m s (t.applyHold a y) := by
  refine h.trans (.of (l := [Block.lc]) ?_ hm)
  unfold State.applyHold
  (repeat' split) <;> simp (maxDischargeDepth := 60)

@[simp] theorem State.goodReply_changes {m : List Block} {s t : State} (a : Nat) (r : Reply) (h : Changes m s t)
    (hm : [Block.lc, .we, .art, .cd, .sc, .qc, .wu, .tu, .op].all m.contains = true) : Changes m s (t.goodReply a r) := by
  refine h.trans (.of (l := [Block.lc, .we, .art, .cd, .sc, .qc, .wu, .tu, .op]) ?_ hm)
  unfold State.goodReply
  dsimp only
  (repeat' split) <;> simp (maxDischargeDepth := 60)

@[simp] theorem State.startJoin_changes {m : List Block} {s t : State} (a : Nat) (h : Changes m s t)
    (hm : [Block.lc, .we].all m.contains = true) : Changes m s (t.startJoin a) := by
  refine h.trans (.of (l := [Block.lc, .we]) ?_ hm)
  unfold State.startJoin
  dsimp only
  (repeat' split) <;> simp (maxDischargeDepth := 60)

@[simp] theorem State.useReply_changes {m : List Block} {s t : State} (v : Visit) (l : List Byte) (h : Changes m s t)
    (hm : [Block.lc, .we, .art, .cd, .sc, .qc, .wu, .tu, .op].all m.contains = true) : Changes m s (t.useReply v l) := by
  refine h.trans (.of (l := [Block.lc, .we, .art, .cd, .sc, .qc, .wu, .tu, .op]) ?_ hm)
  unfold State.useReply
  (repeat' split) <;> simp (maxDischargeDepth := 60)

@[simp] theorem State.takeReply_changes {m : List Block} {s t : State} (l : List Byte) (h : Changes m s t)
    (hm : [Block.lc, .we, .art, .cd, .sc, .qc, .wu, .tu, .op].all m.contains = true) : Changes m s (t.takeReply l) := by
  refine h.trans (.of (l := [Block.lc, .we, .art, .cd, .sc, .qc, .wu, .tu, .op]) ?_ hm)
  unfold State.takeReply
  (repeat' split) <;> simp (maxDischargeDepth := 60)

@[simp] theorem State.windowExpiry_changes {m : List Block} {s t : State} (h : Changes m s t)
    (hm : [Block.op, .lc, .sc, .we, .art, .cd].all m.contains = true) : Changes m s t.windowExpiry := by
  refine h.trans (.of (l := [Block.op, .lc, .sc, .we, .art, .cd]) ?_ hm)
  unfold State.windowExpiry
  dsimp only
  (repeat' split) <;> simp (maxDischargeDepth := 60)

@[simp] theorem State.incompleteReply_changes {m : List Block} {s t : State} (h : Changes m s t)
    (hm : [Block.lc, .sc, .we, .art, .cd, .op].all m.contains = true) : Changes m s t.incompleteReply := by
  refine h.trans (.of (l := [Block.lc, .sc, .we, .art, .cd, .op]) ?_ hm)
  unfold State.incompleteReply
  (repeat' split) <;> simp (maxDischargeDepth := 60)

@[simp] theorem State.openWindow_changes {m : List Block} {s t : State} (h : Changes m s t)
    (hm : [Block.lc].all m.contains = true) : Changes m s t.openWindow := by
  refine h.trans (.of (l := [Block.lc]) ?_ hm)
  unfold State.openWindow
  (repeat' split) <;> simp (maxDischargeDepth := 60)

@[simp] theorem State.turnOff_changes {m : List Block} {s t : State} (a : Nat) (h : Changes m s t)
    (hm : [Block.lc, .sc, .we, .art, .cd, .op].all m.contains = true) : Changes m s (t.turnOff a) := by
  refine h.trans (.of (l := [Block.lc, .sc, .we, .art, .cd, .op]) ?_ hm)
  unfold State.turnOff
  (repeat' split) <;> simp (maxDischargeDepth := 60)

@[simp] theorem State.applyMode_changes {m : List Block} {s t : State} (a : Nat) (x : Mode) (h : Changes m s t)
    (hm : [Block.lc, .sc, .we, .art, .cd, .op].all m.contains = true) : Changes m s (t.applyMode a x) := by
  refine h.trans (.of (l := [Block.lc, .sc, .we, .art, .cd, .op]) ?_ hm)
  unfold State.applyMode
  (repeat' split) <;> simp (maxDischargeDepth := 60)

@[simp] theorem State.dropVisit_changes {m : List Block} {s t : State} (h : Changes m s t)
    (hm : [Block.lc].all m.contains = true) : Changes m s t.dropVisit := by
  refine h.trans (.of (l := [Block.lc]) ?_ hm)
  unfold State.dropVisit
  (repeat' split) <;> simp (maxDischargeDepth := 60)

@[simp] theorem State.setMode_changes {m : List Block} {s t : State} (a : Nat) (x : Mode) (h : Changes m s t)
    (hm : [Block.lc, .sc, .we, .art, .cd, .op].all m.contains = true) : Changes m s (t.setMode a x) := by
  refine h.trans (.of (l := [Block.lc, .sc, .we, .art, .cd, .op]) ?_ hm)
  unfold State.setMode
  dsimp only
  (repeat' split) <;> simp (maxDischargeDepth := 60)

@[simp] theorem State.stnMode_changes {m : List Block} {s t : State} (body : List Byte) (h : Changes m s t)
    (hm : [Block.lc, .sc, .we, .art, .cd, .op].all m.contains = true) : Changes m s (t.stnMode body).1 := by
  refine h.trans (.of (l := [Block.lc, .sc, .we, .art, .cd, .op]) ?_ hm)
  unfold State.stnMode
  dsimp only
  (repeat' split) <;> simp (maxDischargeDepth := 60)

@[simp] theorem State.stnRead_changes {s t : State} {m : List Block} (body : List Byte) (h : Changes m s t) : Changes m s (t.stnRead body).1 := by
  unfold State.stnRead
  dsimp only
  (repeat' split) <;> exact h

/-! ## Deadlines and the clock (R102, R126, R143, R157, R186) -/

@[simp] theorem State.forceDetach_changes {m : List Block} {s t : State} (a : Nat) (h : Changes m s t)
    (hm : [Block.lc, .cd, .art, .we].all m.contains = true) : Changes m s (t.forceDetach a) := by
  refine h.trans (.of (l := [Block.lc, .cd, .art, .we]) ?_ hm)
  unfold State.forceDetach
  simp (maxDischargeDepth := 60)

@[simp] theorem State.noteDetached_changes {m : List Block} {s t : State} (n : Nat) (l : List Nat) (h : Changes m s t)
    (hm : [Block.op].all m.contains = true) : Changes m s (t.noteDetached n l) := by
  refine h.trans (.of (l := [Block.op]) ?_ hm)
  unfold State.noteDetached
  simp (maxDischargeDepth := 60)

@[simp] theorem State.forceSettle_changes {m : List Block} {s t : State} (c : Change) (h : Changes m s t)
    (hm : [Block.lc, .cd, .art, .we, .op].all m.contains = true) : Changes m s (t.forceSettle c) := by
  refine h.trans (.of (l := [Block.lc, .cd, .art, .we, .op]) ?_ hm)
  unfold State.forceSettle
  simp (maxDischargeDepth := 60)

@[simp] theorem State.idleExpired_changes {m : List Block} {s t : State} (k : Ticket) (h : Changes m s t)
    (hm : [Block.sc, .we].all m.contains = true) : Changes m s (t.idleExpired k) := by
  refine h.trans (.of (l := [Block.sc, .we]) ?_ hm)
  unfold State.idleExpired
  simp (maxDischargeDepth := 60)

@[simp] theorem State.expiryExpired_changes {m : List Block} {s t : State} (k : Ticket) (h : Changes m s t)
    (hm : [Block.sc, .we, .art, .tu, .op].all m.contains = true) : Changes m s (t.expiryExpired k) := by
  refine h.trans (.of (l := [Block.sc, .we, .art, .tu, .op]) ?_ hm)
  unfold State.expiryExpired
  simp (maxDischargeDepth := 60)

@[simp] theorem State.printExpired_changes {m : List Block} {s t : State} (k : Ticket) (job : PrintJob) (h : Changes m s t)
    (hm : [Block.lc, .sc, .op].all m.contains = true) : Changes m s (t.printExpired k job) := by
  refine h.trans (.of (l := [Block.lc, .sc, .op]) ?_ hm)
  unfold State.printExpired
  simp (maxDischargeDepth := 60)

@[simp] theorem State.expire_changes {m : List Block} {s t : State} {f : State → State} (n : Nat) (h : Changes m s t)
    (hm : [Block.op].all m.contains = true) (hf : ∀ u, Changes m u (f u)) : Changes m s (t.expire n f) := by
  have hr := State.reach_changes n h hm
  unfold State.expire
  split
  · exact hr
  · exact hr.trans (hf _)

@[simp] theorem State.residencyExpired_changes {m : List Block} {s t : State} (h : Changes m s t)
    (hm : [Block.qc, .sc, .we, .op, .lc].all m.contains = true) : Changes m s t.residencyExpired := by
  refine h.trans (.of (l := [Block.qc, .sc, .we, .op, .lc]) ?_ hm)
  unfold State.residencyExpired
  dsimp only
  (repeat' split) <;> simp (maxDischargeDepth := 60)

@[simp] theorem State.takeDeadline_changes {m : List Block} {s t : State} (d : Deadline) (h : Changes m s t)
    (hm : [Block.lc, .we, .art, .cd, .sc, .qc, .tu, .op].all m.contains = true) : Changes m s (t.takeDeadline d) := by
  refine h.trans (.of (l := [Block.lc, .we, .art, .cd, .sc, .qc, .tu, .op]) ?_ hm)
  unfold State.takeDeadline
  (repeat' split) <;> simp (maxDischargeDepth := 60)

@[simp] theorem State.deadlineRow_changes {m : List Block} {s t : State} (d : Deadline) (h : Changes m s t)
    (hm : [Block.lc, .we, .art, .cd, .sc, .qc, .tu, .op].all m.contains = true) : Changes m s (t.deadlineRow d) := by
  refine h.trans (.of (l := [Block.lc, .we, .art, .cd, .sc, .qc, .tu, .op]) ?_ hm)
  unfold State.deadlineRow
  (repeat' split) <;> simp (maxDischargeDepth := 60)

@[simp] theorem State.takeIfDue_changes {m : List Block} {s t : State} (d : Deadline) (h : Changes m s t)
    (hm : [Block.lc, .we, .art, .cd, .sc, .qc, .tu, .op].all m.contains = true) : Changes m s (t.takeIfDue d) := by
  refine h.trans (.of (l := [Block.lc, .we, .art, .cd, .sc, .qc, .tu, .op]) ?_ hm)
  unfold State.takeIfDue
  (repeat' split) <;> simp (maxDischargeDepth := 60)

@[simp] theorem State.takeDue_changes {m : List Block} {s t : State} (h : Changes m s t)
    (hm : [Block.lc, .we, .art, .cd, .sc, .qc, .tu, .op, .free].all m.contains = true) : Changes m s t.takeDue := by
  refine h.trans (.of (l := [Block.lc, .we, .art, .cd, .sc, .qc, .tu, .op, .free]) ?_ hm)
  unfold State.takeDue
  simp (maxDischargeDepth := 60)

/-! ## The Office Port and the starts of the part (R183 to R191) -/

@[simp] theorem State.restartLine_changes {m : List Block} {s t : State} (h : Changes m s t)
    (hm : [Block.lc].all m.contains = true) : Changes m s t.restartLine := by
  refine h.trans (.of (l := [Block.lc]) ?_ hm)
  unfold State.restartLine
  simp (maxDischargeDepth := 60)

@[simp] theorem State.restartArticles_changes {m : List Block} {s t : State} (h : Changes m s t)
    (hm : [Block.art, .cd].all m.contains = true) : Changes m s t.restartArticles := by
  refine h.trans (.of (l := [Block.art, .cd]) ?_ hm)
  unfold State.restartArticles
  simp (maxDischargeDepth := 60)

@[simp] theorem State.powerOn_changes {m : List Block} {s t : State} (h : Changes m s t)
    (hm : [Block.lc, .we, .art, .cd, .sc, .qc, .wu, .tu, .op].all m.contains = true) : Changes m s t.powerOn := by
  refine h.trans (.of (l := [Block.lc, .we, .art, .cd, .sc, .qc, .wu, .tu, .op]) ?_ hm)
  exact ⟨fun b hb => by cases b <;> first | rfl | exact (hb (by simp)).elim⟩

@[simp] theorem State.restartChannels_changes {m : List Block} {s t : State} (h : Changes m s t)
    (hm : [Block.we].all m.contains = true) : Changes m s t.restartChannels := by
  refine h.trans (.of (l := [Block.we]) ?_ hm)
  unfold State.restartChannels
  simp (maxDischargeDepth := 60)

@[simp] theorem State.restartService_changes {m : List Block} {s t : State} (h : Changes m s t)
    (hm : [Block.sc].all m.contains = true) : Changes m s t.restartService := by
  refine h.trans (.of (l := [Block.sc]) ?_ hm)
  unfold State.restartService
  simp (maxDischargeDepth := 60)

@[simp] theorem State.warmRestart_changes {m : List Block} {s t : State} (c : StartCause) (h : Changes m s t)
    (hm : [Block.lc, .we, .art, .cd, .sc, .qc, .op].all m.contains = true) : Changes m s (t.warmRestart c) := by
  refine h.trans (.of (l := [Block.lc, .we, .art, .cd, .sc, .qc, .op]) ?_ hm)
  unfold State.warmRestart
  simp (maxDischargeDepth := 60)

@[simp] theorem State.resetFall_changes {m : List Block} {s t : State} (h : Changes m s t)
    (hm : [Block.op, .lc].all m.contains = true) : Changes m s t.resetFall := by
  refine h.trans (.of (l := [Block.op, .lc]) ?_ hm)
  unfold State.resetFall
  dsimp only
  (repeat' split) <;> simp (maxDischargeDepth := 60)

@[simp] theorem State.resetRise_changes {m : List Block} {s t : State} (n : Nat) (h : Changes m s t)
    (hm : [Block.lc, .we, .art, .cd, .sc, .qc, .tu, .op, .free].all m.contains = true) : Changes m s (t.resetRise n) := by
  refine h.trans (.of (l := [Block.lc, .we, .art, .cd, .sc, .qc, .tu, .op, .free]) ?_ hm)
  unfold State.resetRise
  dsimp only
  (repeat' split) <;> simp (maxDischargeDepth := 60)

@[simp] theorem State.storeSettings_changes {m : List Block} {s t : State} (c : Settings) (h : Changes m s t)
    (hm : [Block.op, .we, .lc].all m.contains = true) : Changes m s (t.storeSettings c) := by
  refine h.trans (.of (l := [Block.op, .we, .lc]) ?_ hm)
  unfold State.storeSettings
  dsimp only
  (repeat' split) <;> simp (maxDischargeDepth := 60)

@[simp] theorem State.ctrSet_changes {m : List Block} {s t : State} (body : List Byte) (h : Changes m s t)
    (hm : [Block.op, .we, .lc].all m.contains = true) : Changes m s (t.ctrSet body).1 := by
  refine h.trans (.of (l := [Block.op, .we, .lc]) ?_ hm)
  unfold State.ctrSet
  dsimp only
  (repeat' split) <;> simp (maxDischargeDepth := 60)

@[simp] theorem State.ctrRead_changes {s t : State} {m : List Block} (body : List Byte) (h : Changes m s t) : Changes m s (t.ctrRead body).1 := by
  unfold State.ctrRead
  (repeat' split) <;> exact h

@[simp] theorem State.ctrTime_changes {m : List Block} {s t : State} (body : List Byte) (h : Changes m s t)
    (hm : [Block.op].all m.contains = true) : Changes m s (t.ctrTime body).1 := by
  refine h.trans (.of (l := [Block.op]) ?_ hm)
  unfold State.ctrTime
  dsimp only
  (repeat' split) <;> simp (maxDischargeDepth := 60)

@[simp] theorem State.ctrRestart_changes {m : List Block} {s t : State} (body : List Byte) (h : Changes m s t)
    (hm : [Block.lc, .we, .art, .cd, .sc, .qc, .op].all m.contains = true) : Changes m s (t.ctrRestart body).1 := by
  refine h.trans (.of (l := [Block.lc, .we, .art, .cd, .sc, .qc, .op]) ?_ hm)
  unfold State.ctrRestart
  (repeat' split) <;> simp (maxDischargeDepth := 60)

@[simp] theorem State.ctrStatus_changes {s t : State} {m : List Block} (body : List Byte) (h : Changes m s t) : Changes m s (t.ctrStatus body).1 := by
  unfold State.ctrStatus
  (repeat' split) <;> exact h

@[simp] theorem State.ntcRead_changes {m : List Block} {s t : State} (body : List Byte) (h : Changes m s t)
    (hm : [Block.op].all m.contains = true) : Changes m s (t.ntcRead body).1 := by
  refine h.trans (.of (l := [Block.op]) ?_ hm)
  unfold State.ntcRead
  dsimp only
  (repeat' split) <;> simp (maxDischargeDepth := 60)

@[simp] theorem State.ntcAck_changes {m : List Block} {s t : State} (body : List Byte) (h : Changes m s t)
    (hm : [Block.op].all m.contains = true) : Changes m s (t.ntcAck body).1 := by
  refine h.trans (.of (l := [Block.op]) ?_ hm)
  unfold State.ntcAck
  dsimp only
  (repeat' split) <;> simp (maxDischargeDepth := 60)

@[simp] theorem State.responseRead_changes {m : List Block} {s t : State} (n : Nat) (h : Changes m s t)
    (hm : [Block.op].all m.contains = true) : Changes m s (t.responseRead n) := by
  refine h.trans (.of (l := [Block.op]) ?_ hm)
  unfold State.responseRead
  dsimp only
  (repeat' split) <;> simp (maxDischargeDepth := 60)

@[simp] theorem State.badTransaction_changes {m : List Block} {s t : State} (code : Byte) (rest : List Byte) (h : Changes m s t)
    (hm : [Block.op].all m.contains = true) : Changes m s (t.badTransaction code rest) := by
  refine h.trans (.of (l := [Block.op]) ?_ hm)
  unfold State.badTransaction
  (repeat' split) <;> simp (maxDischargeDepth := 60)

@[simp] theorem State.transact_changes {m : List Block} {s t : State} {f : State → State × Answer} (code : Byte)
    (body : List Byte) (h : Changes m s t) (hm : [Block.op].all m.contains = true) (hf : ∀ u, Changes m u (f u).1) :
    Changes m s (t.transact code body f) := by
  unfold State.transact
  dsimp only
  (repeat' split)
  · exact h
  · exact State.sent_changes _ (State.answer_changes _ _ h hm) hm
  · exact State.sent_changes _ (State.answer_changes _ _ (h.trans (hf _)) hm) hm

@[simp] theorem State.hostCommand_changes {m : List Block} {s t : State} (code : Nat) (body : List Byte)
    (h : Changes m s t) (hm : [Block.lc, .we, .art, .cd, .sc, .qc, .wu, .tu, .op].all m.contains = true) :
    Changes m s (t.hostCommand code body).1 := by
  refine h.trans (.of (l := [Block.lc, .we, .art, .cd, .sc, .qc, .wu, .tu, .op]) ?_ hm)
  unfold State.hostCommand
  (repeat' split) <;> simp (maxDischargeDepth := 60)

@[simp] theorem State.transaction_changes {m : List Block} {s t : State} (code : Byte) (rest : List Byte)
    (h : Changes m s t) (hm : [Block.lc, .we, .art, .cd, .sc, .qc, .wu, .tu, .op].all m.contains = true) :
    Changes m s (t.transaction code rest) := by
  refine h.trans (.of (l := [Block.lc, .we, .art, .cd, .sc, .qc, .wu, .tu, .op]) ?_ hm)
  unfold State.transaction
  (repeat' split) <;> simp (maxDischargeDepth := 60)

/-! ## Deadline rows, each with its own blocks -/

theorem State.deadlineRow_of {m : List Block} {s : State} (d : Deadline) (hm : [Block.op].all m.contains = true)
    (hf : ∀ u : State, Changes m u (u.takeDeadline d)) : Changes m s (s.deadlineRow d) := by
  unfold State.deadlineRow
  split
  · exact State.expire_changes _ (Changes.refl _ _) hm hf
  · exact Changes.refl _ _

theorem State.settleRow_changes (s : State) (n : Nat) :
    Changes [.lc, .we, .art, .cd, .op] s (s.deadlineRow (.settle n)) := by
  refine State.deadlineRow_of _ rfl (fun u => ?_)
  unfold State.takeDeadline
  dsimp only
  split <;> simp (maxDischargeDepth := 60)

theorem State.idleRow_changes (s : State) (n : Nat) : Changes [.sc, .we, .op] s (s.deadlineRow (.idle n)) := by
  refine State.deadlineRow_of _ rfl (fun u => ?_)
  unfold State.takeDeadline
  dsimp only
  split <;> simp (maxDischargeDepth := 60)

theorem State.expiryRow_changes (s : State) (n : Nat) :
    Changes [.sc, .we, .art, .tu, .op] s (s.deadlineRow (.expiry n)) := by
  refine State.deadlineRow_of _ rfl (fun u => ?_)
  unfold State.takeDeadline
  dsimp only
  split <;> simp (maxDischargeDepth := 60)

theorem State.printRow_changes (s : State) (n : Nat) : Changes [.lc, .sc, .op] s (s.deadlineRow (.print n)) := by
  refine State.deadlineRow_of _ rfl (fun u => ?_)
  unfold State.takeDeadline
  dsimp only
  (repeat' split) <;> simp (maxDischargeDepth := 60)

theorem State.residencyRow_changes (s : State) : Changes [.qc, .sc, .we, .op, .lc] s (s.deadlineRow .residency) := by
  refine State.deadlineRow_of _ rfl (fun u => ?_)
  unfold State.takeDeadline
  simp (maxDischargeDepth := 60)

end Sys2Proof.Machine
end

