-- ==== Sys2Proof/Laws/Queues.lean ====
section
/-! SUPPORT. Outbound queues: what each placement of R13 and R17 to R21 does to the ordinary entries of a queue, to the
other stations, and to the room that is left for a REPLY. -/

namespace Sys2Proof.Machine

/-! ## Ordinary entries (R17) -/

@[simp] theorem ordinary_nil : ordinary [] = 0 := rfl

theorem ordinary_cons (e : Entry) (q : List Entry) :
    ordinary (e :: q) = (if isSetmode e.msg then 0 else 1) + ordinary q := by
  unfold ordinary
  cases h : isSetmode e.msg <;> simp [h]; omega

theorem ordinary_filter_le (p : Entry → Bool) (q : List Entry) : ordinary (q.filter p) ≤ ordinary q := by
  unfold ordinary
  exact (List.filter_sublist.filter _).length_le

theorem ordinary_append (q : List Entry) (m : DownMsg) :
    ordinary (append q m) = ordinary q + (if isSetmode m then 0 else 1) := by
  induction q with
  | nil => simp [append, ordinary_cons]
  | cons e rest ih =>
    have h : append (e :: rest) m = e :: append rest m := rfl
    rw [h, ordinary_cons, ordinary_cons, ih]
    omega

theorem ordinary_replaceUnsent (p : DownMsg → Bool) (m : DownMsg) (hp : ∀ x, p x = true → isSetmode x = isSetmode m)
    (q : List Entry) : ordinary (replaceUnsent p m q) = ordinary q := by
  induction q with
  | nil => rfl
  | cons e rest ih =>
    unfold replaceUnsent
    split
    · rename_i h
      have he : p e.msg = true := by simp [unsent] at h; exact h.2
      rw [ordinary_cons, ordinary_cons, hp _ he]
    · rw [ordinary_cons, ordinary_cons, ih]

theorem ordinary_withdrawUnsent_le (p : DownMsg → Bool) (q : List Entry) :
    ordinary (withdrawUnsent p q) ≤ ordinary q := by
  induction q with
  | nil => exact le_refl _
  | cons e rest ih =>
    unfold withdrawUnsent
    split
    · rw [ordinary_cons]; omega
    · rw [ordinary_cons, ordinary_cons]; omega

/-- A withdrawal of an ordinary entry that is there frees one entry. -/
theorem ordinary_withdrawUnsent (p : DownMsg → Bool) (hp : ∀ x, p x = true → isSetmode x = false) (q : List Entry)
    (h : q.any (unsent p) = true) : ordinary (withdrawUnsent p q) + 1 = ordinary q := by
  induction q with
  | nil => simp at h
  | cons e rest ih =>
    unfold withdrawUnsent
    split
    · rename_i he
      have hm : isSetmode e.msg = false := hp _ (by simp [unsent] at he; exact he.2)
      rw [ordinary_cons, hm]
      simp
      omega
    · rename_i he
      have hr : rest.any (unsent p) = true := by simpa [he] using h
      rw [ordinary_cons, ordinary_cons, ← ih hr]
      omega

theorem ordinary_markHead (q : List Entry) : ordinary (markHead q) = ordinary q := by
  cases q with
  | nil => rfl
  | cons e rest => simp [markHead, ordinary_cons]

theorem ordinary_placeSetmode (target : StationState) (join : Bool) (layout : Option ScaleLayout) (q : List Entry) :
    ordinary (placeSetmode (.setmode target join layout) q) = ordinary q := by
  unfold placeSetmode
  split
  · refine ordinary_replaceUnsent _ _ ?_ q
    intro x hx
    rw [hx]
    rfl
  · cases q with
    | nil => simp [ordinary_cons, isSetmode]
    | cons e rest =>
      dsimp only
      split <;> simp [ordinary_cons, isSetmode]

theorem ordinary_retarget (target : StationState) (q : List Entry) : ordinary (retarget target q) = ordinary q := by
  cases q with
  | nil => rfl
  | cons e rest =>
    obtain ⟨msg, sent⟩ := e
    cases msg <;> simp only [retarget]
    split <;> simp [ordinary_cons, isSetmode]

theorem free_le_of_ordinary {q r : List Entry} {k : Nat} (h : ordinary r ≤ ordinary q + k) :
    free q ≤ free r + k := by
  unfold free; omega

/-! ## Offers: what a placement does to the Line Controller -/

/-- Only the queue, the backlog and the SHOW owed mark of station a change, and at most k free entries are used. -/
structure Offers (a k : Nat) (s t : State) : Prop where
  only : StationOnly a s t
  keeps : ∃ q b o, t.station a = { s.station a with queue := q, backlog := b, showOwed := o }
  room : ordinary (t.station a).queue ≤ ordinary (s.station a).queue + k

theorem StationOnly.refl (a : Nat) (s : State) : StationOnly a s s := ⟨fun _ _ => rfl, rfl⟩

theorem StationOnly.trans {a : Nat} {s t u : State} (h : StationOnly a s t) (k : StationOnly a t u) :
    StationOnly a s u := by
  refine ⟨fun b hb => (k.1 b hb).trans (h.1 b hb), ?_⟩
  rw [k.2, h.2]

theorem StationOnly.of_lc {a : Nat} {s t : State} (h : t.lc = s.lc) : StationOnly a s t :=
  ⟨fun b _ => State.station_of_lc h b, by rw [h]⟩

theorem StationOnly.setStation (s : State) (a : Nat) (r : Station) : StationOnly a s (s.setStation a r) :=
  ⟨fun b hb => by simp [hb], rfl⟩

theorem Offers.of_lc {a : Nat} {s t : State} (h : t.lc = s.lc) : Offers a 0 s t :=
  ⟨.of_lc h, ⟨_, _, _, by rw [State.station_of_lc h]⟩, by rw [State.station_of_lc h]; omega⟩

theorem Offers.refl (a : Nat) (s : State) : Offers a 0 s s := .of_lc rfl

theorem Offers.trans {a j k : Nat} {s t u : State} (h : Offers a j s t) (g : Offers a k t u) :
    Offers a (j + k) s u := by
  obtain ⟨q, b, o, hq⟩ := h.keeps
  obtain ⟨q', b', o', hq'⟩ := g.keeps
  exact ⟨h.only.trans g.only, ⟨q', b', o', by rw [hq', hq]⟩, by have := h.room; have := g.room; omega⟩

theorem Offers.mono {a j k : Nat} {s t : State} (h : Offers a j s t) (hjk : j ≤ k) : Offers a k s t :=
  ⟨h.only, h.keeps, by have := h.room; omega⟩

/-- A step that leaves the Line Controller alone, after an offer. -/
theorem Offers.then_lc {a k : Nat} {s t u : State} (h : Offers a k s t) (g : u.lc = t.lc) : Offers a k s u :=
  (h.trans (.of_lc g)).mono (by omega)

theorem Offers.setQueue (s : State) (a k : Nat) (q : List Entry) (b : Backlog) (o : Bool)
    (h : ordinary q ≤ ordinary (s.station a).queue + k) :
    Offers a k s (s.setStation a { s.station a with queue := q, backlog := b, showOwed := o }) :=
  ⟨.setStation s a _, ⟨q, b, o, by simp⟩, by simpa using h⟩

theorem Offers.state_eq {a k : Nat} {s t : State} (h : Offers a k s t) : (t.station a).state = (s.station a).state := by
  obtain ⟨q, b, o, hq⟩ := h.keeps
  rw [hq]

theorem Offers.inService_eq {a k : Nat} {s t : State} (h : Offers a k s t) (b : Nat) :
    t.inService b = s.inService b := by
  unfold State.inService
  by_cases hb : b = a
  · subst hb; rw [h.state_eq]
  · rw [h.only.1 b hb]

theorem isVerdict_ordinary (x : DownMsg) (h : isVerdict x = true) : isSetmode x = false := by
  cases x <;> first | rfl | simp [isVerdict] at h

theorem isCallout_ordinary (x : DownMsg) (h : isCallout x = true) : isSetmode x = false := by
  cases x <;> first | rfl | simp [isCallout] at h

theorem isFill_ordinary (x : DownMsg) (h : isFill x = true) : isSetmode x = false := by
  cases x <;> first | rfl | simp [isFill] at h

theorem isFillOf_ordinary (n : Nat) (x : DownMsg) (h : isFillOf n x = true) : isSetmode x = false := by
  cases x <;> first | rfl | simp [isFillOf] at h

theorem isPrintOf_ordinary (n : Nat) (x : DownMsg) (h : isPrintOf n x = true) : isSetmode x = false := by
  cases x <;> first | rfl | simp [isPrintOf] at h

/-- A SHOW takes at most one free entry (R18). -/
theorem State.offerVerdict_offers (s : State) (a : Nat) : Offers a 1 s (s.offerVerdict a) := by
  unfold State.offerVerdict
  dsimp only
  split
  · split
    · refine .setQueue s a 1 _ _ _ ?_
      rw [ordinary_replaceUnsent]
      · omega
      · intro x hx; rw [isVerdict_ordinary x hx]; rfl
    · split
      · refine .setQueue s a 1 _ _ _ ?_
        rw [ordinary_append]; split <;> omega
      · exact .setQueue s a 1 (s.station a).queue (s.station a).backlog true (by omega)
  · exact (Offers.refl a s).mono (by omega)

/-- A CALLOUT goes to the display's queue alone (R18). -/
theorem State.offerCallout_offers (s : State) : Offers 18 1 s s.offerCallout := by
  unfold State.offerCallout
  dsimp only
  split
  · split
    · refine .setQueue s 18 1 _ (s.station 18).backlog (s.station 18).showOwed ?_
      rw [ordinary_replaceUnsent]
      · omega
      · intro x hx; rw [isCallout_ordinary x hx]; rfl
    · split
      · refine .setQueue s 18 1 _ (s.station 18).backlog (s.station 18).showOwed ?_
        rw [ordinary_append]; split <;> omega
      · exact (Offers.refl 18 s).mono (by omega)
  · exact (Offers.refl 18 s).mono (by omega)

theorem State.offerTail_offers (s : State) (a : Nat) (m : DownMsg) : Offers a 1 s (s.offerTail a m) := by
  unfold State.offerTail
  dsimp only
  split
  · split
    · refine .setQueue s a 1 _ (s.station a).backlog (s.station a).showOwed ?_
      rw [ordinary_append]; split <;> omega
    · exact (Offers.refl a s).mono (by omega)
  · exact (Offers.refl a s).mono (by omega)

theorem State.reply_offers (s : State) (a action : Nat) (code : ReplyCode) (data : List Byte) :
    Offers a 1 s (s.reply a action code data) := s.offerTail_offers a _

/-- One freed entry is refilled by at most one message (R21). -/
theorem State.refill_offers (s : State) (a : Nat) : Offers a 1 s (s.refill a) := by
  unfold State.refill
  dsimp only
  (repeat' split) <;> first
    | exact (Offers.refl a s).mono (by omega)
    | (refine .setQueue s a 1 _ _ _ ?_; rw [ordinary_append]; split <;> omega)

/-- A tail offer to a station in service with a free entry stands last in its queue. -/
theorem State.offerTail_last (s : State) (a : Nat) (m : DownMsg) (hs : s.inService a = true)
    (hf : 0 < free (s.station a).queue) :
    (s.offerTail a m).station a = { s.station a with queue := append (s.station a).queue m } := by
  simp [State.offerTail, hs, hf]

/-- The REPLY of an action whose station is in service with a free entry (R17, R22). -/
theorem State.reply_answered (s : State) (a action : Nat) (code : ReplyCode) (data : List Byte)
    (hs : s.inService a = true) (hf : 0 < free (s.station a).queue) :
    (s.reply a action code data).answered a action code data := by
  unfold State.answered State.reply
  rw [s.offerTail_last a _ hs hf]
  simp [append]

theorem State.answered_of_lc {s t : State} (h : t.lc = s.lc) {a action : Nat} {code : ReplyCode} {data : List Byte}
    (hs : s.answered a action code data) : t.answered a action code data := by
  unfold State.answered at *
  rw [State.station_of_lc h]
  exact hs

/-! ## Messages taken (R14, R15) -/

theorem State.markTaken_station (s : State) (a b : Nat) :
    (s.markTaken a).station b = if b = a then { s.station a with lastU := !(s.station a).lastU } else s.station b := by
  simp [State.markTaken]

theorem State.markTaken_inService (s : State) (a b : Nat) : (s.markTaken a).inService b = s.inService b := by
  unfold State.inService
  rw [State.markTaken_station]
  split
  · rename_i h; subst h; rfl
  · rfl

theorem State.markTaken_only (s : State) (a : Nat) : StationOnly a s (s.markTaken a) := .setStation s a _

theorem isScale_kind {a : Nat} (h : isScale a = true) : kindOf a = .scale := by
  unfold isScale at h
  have h2 := of_decide_eq_true (Bool.and_eq_true _ _ ▸ h).2
  unfold kindOf
  split
  · omega
  · split
    · omega
    · rfl

/-- A new message that is always admitted is handed to its owner (R14, R15). -/
theorem State.deliver_hears {s : State} {a : Nat} (h : s.hears a) (f : State → State) :
    s.deliver a .scale false f = f (s.markTaken a) := by
  obtain ⟨h1, h2, h3⟩ := h
  simp [State.deliver, isScale_kind h1, h2, h3]

/-- A new ACTION that is admitted is handed to its owner (R14, R15). -/
theorem State.deliverAction_takes {s : State} {a : Nat} (h : s.takes a) (f : State → State) :
    s.deliverAction a f = f (s.markTaken a) := by
  obtain ⟨⟨h1, h2, h3⟩, h4⟩ := h
  simp [State.deliverAction, State.deliver, isScale_kind h1, h1, h2, h3, h4]

/-- Where an ACTION is taken, three entries are free when its owner begins (R15). -/
theorem State.takes_room {s : State} {a : Nat} (h : s.takes a) :
    (s.markTaken a).inService a = true ∧ ordinary ((s.markTaken a).station a).queue ≤ 5 := by
  refine ⟨by rw [State.markTaken_inService]; exact h.1.2.1, ?_⟩
  have h2 : 3 ≤ free (s.station a).queue := of_decide_eq_true h.2
  unfold free at h2
  simp only [State.markTaken_station, if_true]
  omega

/-- The REPLY after offers that used at most seven entries in all stands last. -/
theorem Offers.answered {a k action : Nat} {code : ReplyCode} {data : List Byte} {s t : State} (h : Offers a k s t)
    (hs : s.inService a = true) (hq : ordinary (s.station a).queue + k ≤ 7) :
    (t.reply a action code data).answered a action code data := by
  refine t.reply_answered a action code data ((h.inService_eq a).trans hs) ?_
  have := h.room
  unfold free
  omega

/-! ## Verdicts (R50, R52) -/

theorem State.offerVerdict_we (s : State) (a : Nat) : (s.offerVerdict a).we = s.we := by
  have h : Changes [.lc] s (s.offerVerdict a) := by simp
  exact h.same .we rfl

/-- The channel after an evaluation (R52). -/
theorem State.evaluate_channel (s : State) (a : Nat) :
    (s.evaluate a).channel a = judged (s.channel a) (s.verdictOf a (s.channel a)) := by
  unfold State.evaluate judged State.verdictOf
  dsimp only
  split
  · rfl
  · rw [State.channel_of_we (State.offerVerdict_we _ _)]; simp

/-- An evaluation touches no other channel. -/
theorem State.evaluate_channel_ne (s : State) {a b : Nat} (h : b ≠ a) : (s.evaluate a).channel b = s.channel b := by
  unfold State.evaluate
  dsimp only
  split
  · rfl
  · rw [State.channel_of_we (State.offerVerdict_we _ _)]; simp [h]

/-- An evaluation offers at most one SHOW, to its own scale. -/
theorem State.evaluate_offers (s : State) (a : Nat) : Offers a 1 s (s.evaluate a) := by
  unfold State.evaluate
  dsimp only
  split
  · exact (Offers.refl a s).mono (by omega)
  · exact ((Offers.of_lc (s := s) (t := s.setChannel a _) rfl).trans (State.offerVerdict_offers _ a)).mono (Nat.le_of_eq rfl)

end Sys2Proof.Machine
end

