-- ==== Sys2Proof/Laws/Totals.lean ====
section
/-! SUPPORT. The banks under postings and accountings: the row tables stay canonical, and while no addition is held the
row sums agree with the grand row (R173, R175 to R178, R180). -/

namespace Sys2Proof.Machine

/-! ## One row -/

theorem Tbl.total_add {α : Type} [DecidableEq α] (f : α → Nat) (d : α) (hd : f d = 0) {t : Tbl α} (hw : Tbl.wf d t)
    (k x : Nat) (v : α) (hv : f v = f (Tbl.read d t k) + x) : Tbl.total f (Tbl.write d t k v) = Tbl.total f t + x := by
  have h := Tbl.total_write f d hd t hw.1 k v
  omega

theorem heldRow_nil {kind index : Nat} {h : Bool} {l : List (Nat × Nat)} :
    heldRow kind index h l = [] ↔ l = [] ∧ h = false := by
  unfold heldRow
  cases h <;> simp

theorem satAdd_exact {top x d : Nat} (h : holds top x d = false) : satAdd top x d = x + d := by
  simp only [holds, decide_eq_false_iff_not] at h
  unfold satAdd
  omega

theorem ArticleRow.plus_exact {r d : ArticleRow} (h : r.held d = false) :
    r.plus d = { items := r.items + d.items, voidItems := r.voidItems + d.voidItems, weight := r.weight + d.weight,
                 value := r.value + d.value, voidValue := r.voidValue + d.voidValue } := by
  simp only [ArticleRow.held, Bool.or_eq_false_iff] at h
  simp [ArticleRow.plus, satAdd_exact, h]

theorem ClerkRow.plus_exact {r d : ClerkRow} (h : r.held d = false) :
    r.plus d = { tickets := r.tickets + d.tickets, items := r.items + d.items, voidItems := r.voidItems + d.voidItems,
                 abandoned := r.abandoned + d.abandoned, value := r.value + d.value,
                 voidValue := r.voidValue + d.voidValue, abandonedValue := r.abandonedValue + d.abandonedValue } := by
  simp only [ClerkRow.held, Bool.or_eq_false_iff] at h
  simp [ClerkRow.plus, satAdd_exact, h]

theorem ScaleRow.plus_exact {r d : ScaleRow} (h : r.held d = false) :
    r.plus d = { items := r.items + d.items, labels := r.labels + d.labels, weight := r.weight + d.weight,
                 value := r.value + d.value } := by
  simp only [ScaleRow.held, Bool.or_eq_false_iff] at h
  simp [ScaleRow.plus, satAdd_exact, h]

theorem GrandRow.plus_exact {r d : GrandRow} (h : r.held d = false) :
    r.plus d = { tickets := r.tickets + d.tickets, items := r.items + d.items, voidItems := r.voidItems + d.voidItems,
                 abandoned := r.abandoned + d.abandoned, labels := r.labels + d.labels, value := r.value + d.value,
                 voidValue := r.voidValue + d.voidValue, abandonedValue := r.abandonedValue + d.abandonedValue } := by
  simp only [GrandRow.held, Bool.or_eq_false_iff] at h
  simp [GrandRow.plus, satAdd_exact, h]

/-! ## A posting -/

/-- Row tables canonical, and agreement while the bank is unmarked and nothing is held. -/
structure Posting.sound (p : Posting) : Prop where
  tables : p.bank.tablesSound
  agrees : p.bank.saturated = false → p.held = [] → p.bank.agrees

@[simp] theorem Posting.addArticle_tables {p : Posting} (n : Nat) (d : ArticleRow) (h : p.bank.tablesSound) :
    (p.addArticle n d).bank.tablesSound := ⟨Tbl.wf_write _ _ _ _ h.1, h.2⟩

@[simp] theorem Posting.addClerk_tables {p : Posting} (n : Nat) (d : ClerkRow) (h : p.bank.tablesSound) :
    (p.addClerk n d).bank.tablesSound := ⟨h.1, Tbl.wf_write _ _ _ _ h.2.1, h.2.2⟩

@[simp] theorem Posting.addScale_tables {p : Posting} (n : Nat) (d : ScaleRow) (h : p.bank.tablesSound) :
    (p.addScale n d).bank.tablesSound := ⟨h.1, h.2.1, Tbl.wf_write _ _ _ _ h.2.2⟩

@[simp] theorem Posting.addGrand_tables {p : Posting} (d : GrandRow) (h : p.bank.tablesSound) :
    (p.addGrand d).bank.tablesSound := h

theorem Posting.addItem_sound {p : Posting} (clerk : Nat) (i : Item) (h : p.sound) : (p.addItem clerk i).sound := by
  refine ⟨?_, fun hs hh => ?_⟩
  · unfold Posting.addItem
    split <;> simp (maxDischargeDepth := 8) [h.tables]
  · have hs0 : p.bank.saturated = false := by
      unfold Posting.addItem at hs
      split at hs <;> exact hs
    unfold Posting.addItem at hh ⊢
    cases hv : i.voided
    case true =>
      simp only [hv, if_true] at hh ⊢
      simp only [Posting.addGrand, Posting.addClerk, Posting.addArticle, heldRow_nil] at hh
      obtain ⟨⟨⟨h0, h1⟩, h2⟩, h3⟩ := hh
      have ha := h.agrees hs0 h0
      have e1 := ArticleRow.plus_exact h1
      have e2 := ClerkRow.plus_exact h2
      have e3 := GrandRow.plus_exact h3
      obtain ⟨w1, w2, w3⟩ := h.tables
      unfold Bank.agrees at ha ⊢
      simp only [Posting.addGrand, Posting.addClerk, Posting.addArticle, e1, e2, e3]
      obtain ⟨a1, a2, a3, a4, a5, a6, a7, a8, a9, b1, b2, b3, b4, b5⟩ := ha
      refine ⟨?_, ?_, ?_, ?_, ?_, ?_, ?_, ?_, ?_, ?_, ?_, ?_, ?_, ?_⟩
      · rw [Tbl.total_add ArticleRow.items _ rfl w1 _ _ _ rfl, ← a1]; rfl
      · rw [Tbl.total_add ClerkRow.items _ rfl w2 _ _ _ rfl, ← a2]; rfl
      · rw [← a3]; rfl
      · rw [Tbl.total_add ArticleRow.value _ rfl w1 _ _ _ rfl, ← a4]; rfl
      · rw [Tbl.total_add ClerkRow.value _ rfl w2 _ _ _ rfl, ← a5]; rfl
      · rw [← a6]; rfl
      · rw [Tbl.total_add ArticleRow.voidItems _ rfl w1 _ _ _ rfl, ← a7]
      · rw [Tbl.total_add ClerkRow.voidItems _ rfl w2 _ _ _ rfl, ← a8]
      · rw [Tbl.total_add ArticleRow.voidValue _ rfl w1 _ _ _ rfl, ← a9]
      · rw [Tbl.total_add ClerkRow.voidValue _ rfl w2 _ _ _ rfl, ← b1]
      · rw [Tbl.total_add ClerkRow.tickets _ rfl w2 _ _ _ rfl, ← b2]; rfl
      · rw [Tbl.total_add ClerkRow.abandoned _ rfl w2 _ _ _ rfl, ← b3]; rfl
      · rw [Tbl.total_add ClerkRow.abandonedValue _ rfl w2 _ _ _ rfl, ← b4]; rfl
      · rw [← b5]; rfl
    case false =>
      simp only [hv, Bool.false_eq_true, if_false] at hh ⊢
      simp only [Posting.addGrand, Posting.addClerk, Posting.addArticle, Posting.addScale, heldRow_nil] at hh
      obtain ⟨⟨⟨⟨h0, h1⟩, h2⟩, h4⟩, h3⟩ := hh
      have ha := h.agrees hs0 h0
      have e1 := ArticleRow.plus_exact h1
      have e2 := ClerkRow.plus_exact h2
      have e3 := GrandRow.plus_exact h3
      have e4 := ScaleRow.plus_exact h4
      obtain ⟨w1, w2, w3⟩ := h.tables
      unfold Bank.agrees at ha ⊢
      simp only [Posting.addGrand, Posting.addClerk, Posting.addArticle, Posting.addScale, e1, e2, e3, e4]
      obtain ⟨a1, a2, a3, a4, a5, a6, a7, a8, a9, b1, b2, b3, b4, b5⟩ := ha
      refine ⟨?_, ?_, ?_, ?_, ?_, ?_, ?_, ?_, ?_, ?_, ?_, ?_, ?_, ?_⟩
      · rw [Tbl.total_add ArticleRow.items _ rfl w1 _ _ _ rfl, ← a1]
      · rw [Tbl.total_add ClerkRow.items _ rfl w2 _ _ _ rfl, ← a2]
      · rw [Tbl.total_add ScaleRow.items _ rfl w3 _ _ _ rfl, ← a3]
      · rw [Tbl.total_add ArticleRow.value _ rfl w1 _ _ _ rfl, ← a4]
      · rw [Tbl.total_add ClerkRow.value _ rfl w2 _ _ _ rfl, ← a5]
      · rw [Tbl.total_add ScaleRow.value _ rfl w3 _ _ _ rfl, ← a6]
      · rw [Tbl.total_add ArticleRow.voidItems _ rfl w1 _ _ _ rfl, ← a7]; rfl
      · rw [Tbl.total_add ClerkRow.voidItems _ rfl w2 _ _ _ rfl, ← a8]; rfl
      · rw [Tbl.total_add ArticleRow.voidValue _ rfl w1 _ _ _ rfl, ← a9]; rfl
      · rw [Tbl.total_add ClerkRow.voidValue _ rfl w2 _ _ _ rfl, ← b1]; rfl
      · rw [Tbl.total_add ClerkRow.tickets _ rfl w2 _ _ _ rfl, ← b2]; rfl
      · rw [Tbl.total_add ClerkRow.abandoned _ rfl w2 _ _ _ rfl, ← b3]; rfl
      · rw [Tbl.total_add ClerkRow.abandonedValue _ rfl w2 _ _ _ rfl, ← b4]; rfl
      · rw [Tbl.total_add ScaleRow.labels _ rfl w3 _ _ _ rfl, ← b5]; rfl

theorem Posting.addItems_sound (clerk : Nat) (l : List Item) {p : Posting} (h : p.sound) :
    (l.foldl (fun acc i => acc.addItem clerk i) p).sound := by
  induction l generalizing p with
  | nil => exact h
  | cons i rest ih => exact ih (Posting.addItem_sound clerk i h)

theorem Posting.addTicket_sound {p : Posting} (t : Ticket) (scale : Nat) (h : p.sound) : (p.addTicket t scale).sound := by
  unfold Posting.addTicket
  have hq := Posting.addItems_sound t.clerk t.items h
  revert hq
  dsimp only
  generalize t.items.foldl (fun acc i => acc.addItem t.clerk i) p = q
  intro hq
  refine ⟨by simp (maxDischargeDepth := 8) [hq.tables], fun hs hh => ?_⟩
  simp only [Posting.addGrand, Posting.addClerk, Posting.addScale, heldRow_nil] at hh
  obtain ⟨⟨⟨h0, h2⟩, h4⟩, h3⟩ := hh
  have ha := hq.agrees hs h0
  have e2 := ClerkRow.plus_exact h2
  have e3 := GrandRow.plus_exact h3
  have e4 := ScaleRow.plus_exact h4
  obtain ⟨w1, w2, w3⟩ := hq.tables
  unfold Bank.agrees at ha ⊢
  simp only [Posting.addGrand, Posting.addClerk, Posting.addScale, e2, e3, e4]
  obtain ⟨a1, a2, a3, a4, a5, a6, a7, a8, a9, b1, b2, b3, b4, b5⟩ := ha
  refine ⟨?_, ?_, ?_, ?_, ?_, ?_, ?_, ?_, ?_, ?_, ?_, ?_, ?_, ?_⟩
  · rw [← a1]; rfl
  · rw [Tbl.total_add ClerkRow.items _ rfl w2 _ _ _ rfl, ← a2]; rfl
  · rw [Tbl.total_add ScaleRow.items _ rfl w3 _ _ _ rfl, ← a3]; rfl
  · rw [← a4]; rfl
  · rw [Tbl.total_add ClerkRow.value _ rfl w2 _ _ _ rfl, ← a5]; rfl
  · rw [Tbl.total_add ScaleRow.value _ rfl w3 _ _ _ rfl, ← a6]; rfl
  · rw [← a7]; rfl
  · rw [Tbl.total_add ClerkRow.voidItems _ rfl w2 _ _ _ rfl, ← a8]; rfl
  · rw [← a9]; rfl
  · rw [Tbl.total_add ClerkRow.voidValue _ rfl w2 _ _ _ rfl, ← b1]; rfl
  · rw [Tbl.total_add ClerkRow.tickets _ rfl w2 _ _ _ rfl, ← b2]
  · rw [Tbl.total_add ClerkRow.abandoned _ rfl w2 _ _ _ rfl, ← b3]; rfl
  · rw [Tbl.total_add ClerkRow.abandonedValue _ rfl w2 _ _ _ rfl, ← b4]; rfl
  · rw [Tbl.total_add ScaleRow.labels _ rfl w3 _ _ _ rfl, ← b5]

theorem Posting.addAbandoned_sound {p : Posting} (t : Ticket) (hq : p.sound) : (p.addAbandoned t).sound := by
  unfold Posting.addAbandoned
  refine ⟨by simp (maxDischargeDepth := 8) [hq.tables], fun hs hh => ?_⟩
  simp only [Posting.addGrand, Posting.addClerk, heldRow_nil] at hh
  obtain ⟨⟨h0, h2⟩, h3⟩ := hh
  have ha := hq.agrees hs h0
  have e2 := ClerkRow.plus_exact h2
  have e3 := GrandRow.plus_exact h3
  obtain ⟨w1, w2, w3⟩ := hq.tables
  unfold Bank.agrees at ha ⊢
  simp only [Posting.addGrand, Posting.addClerk, e2, e3]
  obtain ⟨a1, a2, a3, a4, a5, a6, a7, a8, a9, b1, b2, b3, b4, b5⟩ := ha
  refine ⟨?_, ?_, ?_, ?_, ?_, ?_, ?_, ?_, ?_, ?_, ?_, ?_, ?_, ?_⟩
  · rw [← a1]; rfl
  · rw [Tbl.total_add ClerkRow.items _ rfl w2 _ _ _ rfl, ← a2]; rfl
  · rw [← a3]; rfl
  · rw [← a4]; rfl
  · rw [Tbl.total_add ClerkRow.value _ rfl w2 _ _ _ rfl, ← a5]; rfl
  · rw [← a6]; rfl
  · rw [← a7]; rfl
  · rw [Tbl.total_add ClerkRow.voidItems _ rfl w2 _ _ _ rfl, ← a8]; rfl
  · rw [← a9]; rfl
  · rw [Tbl.total_add ClerkRow.voidValue _ rfl w2 _ _ _ rfl, ← b1]; rfl
  · rw [Tbl.total_add ClerkRow.tickets _ rfl w2 _ _ _ rfl, ← b2]; rfl
  · rw [Tbl.total_add ClerkRow.abandoned _ rfl w2 _ _ _ rfl, ← b3]
  · rw [Tbl.total_add ClerkRow.abandonedValue _ rfl w2 _ _ _ rfl, ← b4]
  · rw [← b5]; rfl

/-! ## The Totals Unit -/

theorem firstHeld_none {l : List (Nat × Nat)} (h : firstHeld l = none) : l = [] := by
  cases l with
  | nil => rfl
  | cons x rest =>
    unfold firstHeld at h
    cases h2 : firstHeld rest with
    | none => simp [h2] at h
    | some y =>
      simp only [h2] at h
      split at h <;> cases h

theorem Bank.clear_tables (n : Nat) : Bank.tablesSound { Bank.clear with period := n } :=
  ⟨Tbl.wf_nil _, Tbl.wf_nil _, Tbl.wf_nil _⟩

theorem Bank.clear_agrees (n : Nat) : Bank.agrees { Bank.clear with period := n } := by
  refine ⟨rfl, rfl, rfl, rfl, rfl, rfl, rfl, rfl, rfl, rfl, rfl, rfl, rfl, rfl⟩

theorem Bank.clear_sound (n : Nat) : Bank.sound { Bank.clear with period := n } :=
  ⟨Bank.clear_tables n, fun _ => Bank.clear_agrees n⟩

theorem State.setLiveBank_sound {s : State} (b : Bank) (h : s.tu.sound) (hb : b.sound) : (s.setLiveBank b).tu.sound := by
  obtain ⟨h1, h2, h3⟩ := h
  unfold State.setLiveBank
  cases hl : s.tu.live with
  | a =>
    refine ⟨hb, h2, ?_⟩
    intro hf
    simpa [hl, otherBank, TotalsUnit.bank] using h3 hf
  | b =>
    refine ⟨h1, hb, ?_⟩
    intro hf
    simpa [hl, otherBank, TotalsUnit.bank] using h3 hf

theorem State.liveBank_sound {s : State} (h : s.tu.sound) : s.liveBank.sound := by
  unfold State.liveBank
  cases s.tu.live <;> [exact h.1; exact h.2.1]

/-- A posting or accounting keeps the Totals Unit sound. -/
theorem State.account_sound {s : State} (cause ticket : Nat) (f : Posting → Posting) (h : s.tu.sound)
    (hf : ∀ p : Posting, p.sound → (f p).sound) : (s.account cause ticket f).tu.sound := by
  have hb := State.liveBank_sound h
  have hp := hf { bank := s.liveBank, held := [] } ⟨hb.1, fun hs _ => hb.2 hs⟩
  unfold State.account
  dsimp only
  split
  · rename_i hn
    exact State.setLiveBank_sound _ h ⟨hp.tables, fun hs => hp.agrees hs (firstHeld_none hn)⟩
  · have := State.setLiveBank_sound { (f { bank := s.liveBank, held := [] }).bank with saturated := true } h
      ⟨hp.tables, fun hx => by simp at hx⟩
    split
    · exact this
    · exact this

theorem State.totClose_sound {s : State} (body : List Byte) (h : s.tu.sound) : (s.totClose body).1.tu.sound := by
  obtain ⟨h1, h2, h3⟩ := h
  unfold State.totClose
  split
  · exact ⟨h1, h2, h3⟩
  · split
    · exact ⟨h1, h2, h3⟩
    · rename_i hf
      have hc := h3 (by simpa using hf)
      cases hl : s.tu.live <;> simp only [hl, otherBank, TotalsUnit.bank, TotalsUnit.setBank] at hc ⊢
      · exact ⟨h1, by rw [hc]; exact Bank.clear_sound _, by simp⟩
      · exact ⟨by rw [hc]; exact Bank.clear_sound _, h2, by simp⟩

theorem State.totClear_sound {s : State} (body : List Byte) (h : s.tu.sound) : (s.totClear body).1.tu.sound := by
  obtain ⟨h1, h2, h3⟩ := h
  unfold State.totClear
  split
  · exact ⟨h1, h2, h3⟩
  · split
    · cases hl : s.tu.live <;> simp only [otherBank, TotalsUnit.setBank]
      · exact ⟨h1, Bank.clear_sound 0, fun _ => by simp [hl, otherBank, TotalsUnit.bank]⟩
      · exact ⟨Bank.clear_sound 0, h2, fun _ => by simp [hl, otherBank, TotalsUnit.bank]⟩
    · exact ⟨h1, h2, h3⟩

end Sys2Proof.Machine
end

