-- ==== Sys2Proof/Laws/Keeps.lean ====
section
/-! SUPPORT. What every event keeps: the lines and the FIFO of the Office Port, the ranges of the settings, the capacity
of queues and lists, the canonical form of the tables, and the agreement of the banks. Each lemma extends a run of
operations by one, so that simp assembles an event from its operations. -/

namespace Sys2Proof.Machine

/-! ## The relation -/

/-- Every invariant of Sys2Proof/Safety.lean that holds of s holds of t. -/
structure Keeps (s t : State) : Prop where
  port : s.op.sound → t.op.sound
  settings : s.op.settings.sound → t.op.settings.sound
  totals : s.tu.sound → t.tu.sound
  capacity : s.capacitySound → t.capacitySound
  tables : s.tablesSound → t.tablesSound
  numbers : s.numbersSound → t.numbersSound

@[simp] theorem Keeps.refl (s : State) : Keeps s s := ⟨id, id, id, id, id, id⟩

theorem Keeps.trans {s t u : State} (h : Keeps s t) (k : Keeps t u) : Keeps s u :=
  ⟨k.port ∘ h.port, k.settings ∘ h.settings, k.totals ∘ h.totals, k.capacity ∘ h.capacity, k.tables ∘ h.tables,
    k.numbers ∘ h.numbers⟩

@[simp] theorem Keeps.foldl {β : Type} {s t : State} {f : State → β → State} (xs : List β)
    (h : Keeps s t) (hf : ∀ u x, Keeps u (f u x)) : Keeps s (xs.foldl f t) := by
  induction xs generalizing t with
  | nil => exact h
  | cons x rest ih => exact ih (h.trans (hf t x))

/-! ## Record updates -/

@[simp] theorem State.setStation_keeps {s t : State} (a : Nat) (r : Station) (h : Keeps s t)
    (hr : ordinary r.queue ≤ ordinary (t.station a).queue ∨ ordinary r.queue ≤ 8) : Keeps s (t.setStation a r) := by
  refine h.trans ⟨id, id, id, fun hc => ⟨fun b => ?_, hc.2⟩, fun ht => ⟨Tbl.wf_write _ _ _ _ ht.1, ht.2⟩, id⟩
  rw [State.station_setStation]
  split
  · have := hc.1 a
    omega
  · exact hc.1 b

@[simp] theorem State.setChannel_keeps {s t : State} (a : Nat) (r : Channel) (h : Keeps s t) :
    Keeps s (t.setChannel a r) :=
  h.trans ⟨id, id, id, id, fun ht => ⟨ht.1, Tbl.wf_write _ _ _ _ ht.2.1, ht.2.2⟩, id⟩

@[simp] theorem State.setArticle_keeps {s t : State} (n : Nat) (r : Article) (h : Keeps s t) :
    Keeps s (t.setArticle n r) :=
  h.trans ⟨id, id, id, id, fun ht => ⟨ht.1, ht.2.1, Tbl.wf_write _ _ _ _ ht.2.2.1, ht.2.2.2⟩, id⟩

@[simp] theorem State.setCopyMap_keeps {s t : State} (a : Nat) (l : List CopyEntry) (h : Keeps s t) :
    Keeps s (t.setCopyMap a l) :=
  h.trans ⟨id, id, id, id, fun ht => ⟨ht.1, ht.2.1, ht.2.2.1, Tbl.wf_write _ _ _ _ ht.2.2.2.1, ht.2.2.2.2⟩, id⟩

@[simp] theorem State.setChanges_keeps {s t : State} (l : List Change) (h : Keeps s t) : Keeps s (t.setChanges l) :=
  h.trans ⟨id, id, id, id, id, id⟩

@[simp] theorem State.setClerk_keeps {s t : State} (c : Nat) (r : Clerk) (h : Keeps s t) : Keeps s (t.setClerk c r) :=
  h.trans ⟨id, id, id, id, fun ht => ⟨ht.1, ht.2.1, ht.2.2.1, ht.2.2.2.1, Tbl.wf_write _ _ _ _ ht.2.2.2.2.1, ht.2.2.2.2.2⟩, id⟩

@[simp] theorem State.setPrintRecord_keeps {s t : State} (a : Nat) (r : PrintRecord) (h : Keeps s t) :
    Keeps s (t.setPrintRecord a r) :=
  h.trans ⟨id, id, id, id, fun ht => ⟨ht.1, ht.2.1, ht.2.2.1, ht.2.2.2.1, ht.2.2.2.2.1, Tbl.wf_write _ _ _ _ ht.2.2.2.2.2⟩, id⟩

@[simp] theorem State.setTickets_keeps {s t : State} (l : List Ticket) (h : Keeps s t)
    (hl : (l.map (·.number)).Sublist (t.sc.tickets.map (·.number))) : Keeps s (t.setTickets l) := by
  refine h.trans ⟨id, id, id, fun hc => ⟨hc.1, ?_, hc.2.2⟩, id, fun hn => ?_⟩
  · have := hl.length_le
    simp only [List.length_map] at this
    exact le_trans this hc.2.1
  · refine ⟨List.pairwise_map.mp ((List.pairwise_map.mpr hn.1).sublist hl), fun x hx => ?_⟩
    obtain ⟨y, hy, hyx⟩ := List.mem_map.mp (hl.subset (List.mem_map_of_mem (f := (·.number)) hx))
    have := hn.2 y hy
    omega

theorem insertTicket_length (x : Ticket) (l : List Ticket) : (insertTicket x l).length = l.length + 1 := by
  induction l with
  | nil => rfl
  | cons y rest ih =>
    unfold insertTicket
    split <;> simp [ih]

theorem mem_insertTicket (x y : Ticket) (l : List Ticket) : y ∈ insertTicket x l ↔ y = x ∨ y ∈ l := by
  induction l with
  | nil => simp [insertTicket]
  | cons z rest ih =>
    unfold insertTicket
    split
    · simp
    · simp only [List.mem_cons, ih]
      tauto

theorem insertTicket_rising (x : Ticket) (l : List Ticket) (h : l.Pairwise (fun y z => y.number < z.number))
    (hx : ∀ y ∈ l, y.number ≠ x.number) : (insertTicket x l).Pairwise (fun y z => y.number < z.number) := by
  induction l with
  | nil => simp [insertTicket]
  | cons y rest ih =>
    obtain ⟨h1, h2⟩ := List.pairwise_cons.mp h
    unfold insertTicket
    split
    · rename_i hlt
      refine List.pairwise_cons.mpr ⟨fun z hz => ?_, h⟩
      rcases List.mem_cons.mp hz with rfl | hz
      · exact hlt
      · exact lt_trans hlt (h1 z hz)
    · rename_i hge
      refine List.pairwise_cons.mpr ⟨fun z hz => ?_, ih h2 (fun z hz => hx z (List.mem_cons_of_mem _ hz))⟩
      rcases (mem_insertTicket x z rest).mp hz with rfl | hz
      · have := hx y List.mem_cons_self
        omega
      · exact h1 z hz

/-- While the table has a free record, the number that R117 assigns is one that no ticket holds. -/
theorem State.freshTicketNumber_free {s : State} (hn : s.sc.tickets.length < 64) :
    (∀ t ∈ s.sc.tickets, t.number ≠ s.freshTicketNumber) ∧ 1 ≤ s.freshTicketNumber ∧ s.freshTicketNumber ≤ 999 := by
  unfold State.freshTicketNumber
  generalize hl : (List.range 999).map (fun i => (s.sc.lastTicket + i) % 999 + 1) = l
  have hmem : ∀ n ∈ l, 1 ≤ n ∧ n ≤ 999 := by
    intro n hx
    rw [← hl] at hx
    obtain ⟨i, -, rfl⟩ := List.mem_map.mp hx
    omega
  cases hf : l.find? (fun n => (s.ticketOf n).isNone) with
  | some n =>
    have h1 := List.find?_some hf
    have h2 := hmem n (List.mem_of_find?_eq_some hf)
    refine ⟨fun t ht => ?_, by simpa using h2⟩
    simp only [State.ticketOf, Option.isNone_iff_eq_none, List.find?_eq_none] at h1
    simpa using h1 t ht
  | none =>
    exfalso
    have hall : l ⊆ s.sc.tickets.map (·.number) := by
      intro n hx
      have h1 := List.find?_eq_none.mp hf n hx
      simp only [State.ticketOf, Option.isNone_iff_eq_none] at h1
      obtain ⟨t, ht⟩ := Option.ne_none_iff_exists'.mp h1
      have h2 := List.find?_some ht
      exact List.mem_map.mpr ⟨t, List.mem_of_find?_eq_some ht, by simpa using h2⟩
    have hnd : l.Nodup := by
      rw [← hl]
      refine List.Nodup.map_on ?_ List.nodup_range
      intro i hi j hj hij
      simp only [List.mem_range] at hi hj
      omega
    have hlen := (hnd.subperm hall).length_le
    rw [← hl] at hlen
    simp only [List.length_map, List.length_range] at hlen
    omega

@[simp] theorem State.openTicket_keeps {s t : State} (x : Ticket) (h : Keeps s t) (hn : t.sc.tickets.length < 64)
    (hx : x.number = t.freshTicketNumber) : Keeps s (t.openTicket x) := by
  obtain ⟨hf, hr⟩ := State.freshTicketNumber_free hn
  rw [← hx] at hf hr
  refine h.trans ⟨id, id, id, fun hc => ⟨hc.1, ?_, hc.2.2⟩, id, fun hs => ⟨insertTicket_rising _ _ hs.1 hf, fun y hy => ?_⟩⟩
  · show (insertTicket x t.sc.tickets).length ≤ 64
    rw [insertTicket_length]
    omega
  · rcases (mem_insertTicket x y _).mp hy with rfl | hy
    · exact hr
    · exact hs.2 y hy

@[simp] theorem State.counterTicket_number (s : State) (c : Nat) (q : Option Nat) :
    (s.counterTicket c q).number = s.freshTicketNumber := by
  simp only [State.counterTicket]

@[simp] theorem State.directTicket_number (s : State) (a c : Nat) (i : Item) (tag : Nat) (y : Bool) :
    (s.directTicket a c i tag y).number = s.freshTicketNumber := by
  simp only [State.directTicket]

theorem replaceTicket_numbers (x : Ticket) (l : List Ticket) :
    (replaceTicket x l).map (·.number) = l.map (·.number) := by
  unfold replaceTicket
  rw [List.map_map]
  refine List.map_congr_left (fun y _ => ?_)
  simp only [Function.comp]
  split
  · rename_i h
    exact h.symm
  · rfl

@[simp] theorem State.putTicket_keeps {s t : State} (x : Ticket) (h : Keeps s t) : Keeps s (t.putTicket x) :=
  State.setTickets_keeps _ h (by rw [replaceTicket_numbers])

@[simp] theorem State.queueUpdate_keeps {s t : State} (x : QueueController) (h : Keeps s t)
    (hw : x.waiting.length ≤ t.qc.waiting.length ∨ x.waiting.length ≤ 64)
    (hs : x.serving.length ≤ t.qc.serving.length ∨ x.serving.length ≤ 4) : Keeps s { t with qc := x } :=
  h.trans ⟨id, id, id, fun hc => ⟨hc.1, hc.2.1, hw.elim (fun k => le_trans k hc.2.2.1) id,
    hs.elim (fun k => le_trans k hc.2.2.2) id⟩, id, id⟩

@[simp] theorem State.setServing_keeps {s t : State} (l : List (Nat × Nat)) (h : Keeps s t)
    (hl : l.length ≤ t.qc.serving.length ∨ l.length ≤ 4) : Keeps s (t.setServing l) :=
  State.queueUpdate_keeps _ h (.inl (le_refl _)) hl

@[simp] theorem placeServing_length (q a : Nat) (l : List (Nat × Nat)) : (placeServing q a l).length ≤ 4 := by
  simp [placeServing]

@[simp] theorem dropServing_length (q : Nat) (l : List (Nat × Nat)) : (dropServing q l).length ≤ l.length := by
  simp [dropServing, List.length_filter_le]

@[simp] theorem State.enterLevel_keeps {s t : State} (v : RushLevel) (h : Keeps s t) : Keeps s (t.enterLevel v) :=
  State.queueUpdate_keeps _ h (.inl (le_refl _)) (.inl (le_refl _))

@[simp] theorem State.countMatches_keeps {s t : State} (r : WatchResult) (h : Keeps s t) : Keeps s (t.countMatches r) :=
  h.trans ⟨id, id, id, id, id, id⟩

@[simp] theorem State.watchUpdate_keeps {s t : State} (x : WatchUnit) (h : Keeps s t) : Keeps s { t with wu := x } :=
  h.trans ⟨id, id, id, id, id, id⟩

theorem State.portUpdate_keeps {s t : State} (x : OfficePort) (h : Keeps s t) (hp : t.op.sound → x.sound)
    (hc : t.op.settings.sound → x.settings.sound) : Keeps s { t with op := x } :=
  h.trans ⟨hp, hc, id, id, id, id⟩

@[simp] theorem State.setNow_keeps {s t : State} (x : Nat) (h : Keeps s t) : Keeps s (t.setNow x) :=
  State.portUpdate_keeps _ h id id

@[simp] theorem State.reach_keeps {s t : State} (x : Nat) (h : Keeps s t) : Keeps s (t.reach x) :=
  State.setNow_keeps _ h

/-- A notice raised keeps the lines and the FIFO (R187, R188). -/
theorem OfficePort.place_sound (p : OfficePort) (k : NoticeKind) (l : List Nat) (h : p.sound) : (p.place k l).sound := by
  obtain ⟨h1, -, h3⟩ := h
  unfold OfficePort.place
  split
  · exact ⟨h1, rfl, h3⟩
  · split
    · rename_i hl
      refine ⟨h1, rfl, ?_⟩
      show (p.fifo ++ [_]).length ≤ 32
      simp
      omega
    · exact ⟨h1, rfl, h3⟩

theorem OfficePort.place_settings (p : OfficePort) (k : NoticeKind) (l : List Nat) :
    (p.place k l).settings = p.settings := by
  unfold OfficePort.place
  (repeat' split) <;> rfl

@[simp] theorem State.raise_keeps {s t : State} (k : NoticeKind) (l : List Nat) (h : Keeps s t) :
    Keeps s (t.raise k l) :=
  State.portUpdate_keeps _ h (OfficePort.place_sound _ _ _) (by rw [OfficePort.place_settings]; exact id)

@[simp] theorem State.answer_keeps {s t : State} (code : Byte) (r : Answer) (h : Keeps s t) :
    Keeps s (t.answer code r) :=
  State.portUpdate_keeps _ h (fun hp => ⟨rfl, hp.2.1, hp.2.2⟩) id

@[simp] theorem State.sent_keeps {s t : State} (out : List Byte) (h : Keeps s t) : Keeps s (t.sent out) :=
  State.portUpdate_keeps _ h id id

@[simp] theorem State.releaseResponse_keeps {s t : State} (h : Keeps s t) : Keeps s t.releaseResponse :=
  State.portUpdate_keeps _ h (fun hp => ⟨rfl, hp.2.1, hp.2.2⟩) id

@[simp] theorem State.lineUpdate_keeps {s t : State} (x : LineController) (h : Keeps s t)
    (hx : x.stations = t.lc.stations) : Keeps s { t with lc := x } :=
  h.trans ⟨id, id, id, fun hc => ⟨fun a => by unfold State.station; rw [hx]; exact hc.1 a, hc.2⟩,
    fun ht => ⟨by rw [hx]; exact ht.1, ht.2⟩, id⟩

@[simp] theorem State.openVisit_keeps {s t : State} (v : Visit) (h : Keeps s t) : Keeps s (t.openVisit v) :=
  State.lineUpdate_keeps _ h rfl

@[simp] theorem State.endVisit_keeps {s t : State} (h : Keeps s t) : Keeps s t.endVisit :=
  State.lineUpdate_keeps _ h rfl

@[simp] theorem State.beginProbe_keeps {s t : State} (a : Nat) (h : Keeps s t) : Keeps s (t.beginProbe a) :=
  State.openVisit_keeps _ (State.lineUpdate_keeps _ h rfl)

@[simp] theorem State.copyUpdate_keeps {s t : State} (h : Keeps s t) :
    Keeps s { t with cd := { maps := [], changes := [] } } :=
  h.trans ⟨id, id, id, id, fun ht => ⟨ht.1, ht.2.1, ht.2.2.1, Tbl.wf_nil _, ht.2.2.2.2⟩, id⟩

@[simp] theorem State.countUpdate_keeps {s t : State} (x : Nat) (h : Keeps s t) : Keeps s { t with freeCount := x } :=
  h.trans ⟨id, id, id, id, id, id⟩

theorem State.totalsUpdate_keeps {s t u : State} (h : Keeps s t) (hu : u = { t with tu := u.tu })
    (ht : t.tu.sound → u.tu.sound) : Keeps s u := by
  rw [hu]
  exact h.trans ⟨id, id, ht, id, id, id⟩

@[simp] theorem State.restartPort_keeps {s t : State} (c : StartCause) (h : Keeps s t) : Keeps s (t.restartPort c) := by
  refine h.trans ⟨fun hp => ?_, fun hc => ?_, id, id, id, id⟩
  · obtain ⟨h1, -, -⟩ := hp
    exact ⟨h1, rfl, Nat.le_of_ble_eq_true rfl⟩
  · rw [State.restartPort, State.raise, OfficePort.place_settings]
    exact hc

@[simp] theorem State.clockTick_keeps {s t : State} (h : Keeps s t) : Keeps s t.clockTick := by
  unfold State.clockTick
  exact State.portUpdate_keeps _ (State.reach_keeps _ h) id id

@[simp] theorem ordinary_append_le {q : List Entry} (m : DownMsg) (h : 0 < free q) : ordinary (append q m) ≤ 8 := by
  rw [ordinary_append]
  unfold free at h
  split <;> omega

theorem State.tableFull_false {s : State} : s.tableFull = false ↔ s.sc.tickets.length < 64 := by
  unfold State.tableFull
  simp

theorem oldestFill_any {q : List Entry} {k : Nat} (h : oldestFill q = some k) : q.any (unsent isFill) = true := by
  induction q with
  | nil => simp [oldestFill] at h
  | cons e rest ih =>
    unfold oldestFill at h
    split at h
    · rename_i hm hs
      simp [unsent, isFill, hm, hs]
    · simp [ih h]

theorem purgeAllOffered_ordinary (st : Station) (m : DownMsg) :
    ordinary (purgeAllOffered st m).queue ≤ ordinary st.queue ∨ ordinary (purgeAllOffered st m).queue ≤ 8 := by
  have hf := ordinary_filter_le (fun e => !(unsent isFill e || unsent isPurge e)) st.queue
  unfold purgeAllOffered
  dsimp only
  split
  · rename_i h1
    split
    · rename_i h2
      simp only [Bool.and_eq_true, decide_eq_true_eq] at h2
      exact .inr (ordinary_append_le _ h2.2)
    · exact .inr (ordinary_append_le _ h1)
  · exact .inl hf

theorem State.openingRefused_none {s : State} {a : Nat} (h : s.openingRefused a = none) : s.tableFull = false := by
  unfold State.openingRefused at h
  split at h
  · cases h
  · split at h
    · cases h
    · split at h
      · cases h
      · split at h
        · cases h
        · simpa using ‹¬s.tableFull = true›

theorem clampTo_bounds (lo hi v : Nat) (h : lo ≤ hi) : lo ≤ clampTo lo hi v ∧ clampTo lo hi v ≤ hi := by
  unfold clampTo
  omega

theorem clampSettings_sound (c : Settings) (h : incrementSound c.increment = true) : (clampSettings c).sound := by
  unfold clampSettings Settings.sound
  simp only [incrementSound, Bool.or_eq_true, beq_iff_eq] at h
  refine ⟨clampTo_bounds _ _ _ (by decide), clampTo_bounds _ _ _ (by decide), by simpa [or_assoc] using h,
    clampTo_bounds _ _ _ (by decide), clampTo_bounds _ _ _ (by decide), clampTo_bounds _ _ _ (by decide),
    clampTo_bounds _ _ _ (by decide), clampTo_bounds _ _ _ (by decide), ?_, (clampTo_bounds _ _ _ (by decide)).2,
    (clampTo_bounds _ _ _ (by decide)).2, clampTo_bounds _ _ _ (by decide), clampTo_bounds _ _ _ (by decide)⟩
  have := (clampTo_bounds 1 64 c.rushThreshold (by decide)).1
  dsimp only
  omega

@[simp] theorem configured_queue (st : Station) (x : Mode) : (configured st x).queue = st.queue := by
  cases x <;> rfl

/-! ## Queues and messages (R13 to R22) -/

@[simp] theorem State.offerVerdict_keeps {s t : State} (a : Nat) (h : Keeps s t) : Keeps s (t.offerVerdict a) := by
  refine h.trans ?_
  unfold State.offerVerdict
  dsimp only
  have hv : ordinary (replaceUnsent isVerdict (t.verdictMsg a) (t.station a).queue) = ordinary (t.station a).queue :=
    ordinary_replaceUnsent _ _ (fun x hx => by rw [isVerdict_ordinary x hx]; rfl) _
  (repeat' split) <;> simp_all

@[simp] theorem State.offerCallout_keeps {s t : State} (h : Keeps s t) : Keeps s t.offerCallout := by
  refine h.trans ?_
  unfold State.offerCallout
  dsimp only
  have hv : ordinary (replaceUnsent isCallout t.calloutMsg (t.station 18).queue) = ordinary (t.station 18).queue :=
    ordinary_replaceUnsent _ _ (fun x hx => by rw [isCallout_ordinary x hx]; rfl) _
  (repeat' split) <;> simp_all

@[simp] theorem State.offerTail_keeps {s t : State} (a : Nat) (x : DownMsg) (h : Keeps s t) :
    Keeps s (t.offerTail a x) := by
  refine h.trans ?_
  unfold State.offerTail
  dsimp only
  (repeat' split) <;> simp_all

@[simp] theorem State.reply_keeps {s t : State} (a action : Nat) (code : ReplyCode) (data : List Byte) (h : Keeps s t) : Keeps s (t.reply a action code data) := by
  refine h.trans ?_
  unfold State.reply
  simp (maxDischargeDepth := 80)

@[simp] theorem State.refill_keeps {s t : State} (a : Nat) (h : Keeps s t) : Keeps s (t.refill a) := by
  refine h.trans ?_
  unfold State.refill
  dsimp only
  (repeat' split) <;> simp_all

@[simp] theorem State.offerPurgeAll_keeps {s t : State} (a : Nat) (h : Keeps s t) : Keeps s (t.offerPurgeAll a) := by
  refine h.trans ?_
  unfold State.offerPurgeAll
  split
  · exact State.setStation_keeps _ _ (Keeps.refl _) (purgeAllOffered_ordinary _ _)
  · exact Keeps.refl _

@[simp] theorem State.offerSetmode_keeps {s t : State} (a : Nat) (h : Keeps s t) : Keeps s (t.offerSetmode a) := by
  refine h.trans ?_
  unfold State.offerSetmode
  exact State.setStation_keeps _ _ (Keeps.refl _) (.inl (by rw [ordinary_placeSetmode]))

@[simp] theorem State.recomputeJoin_keeps {s t : State} (a : Nat) (h : Keeps s t) : Keeps s (t.recomputeJoin a) := by
  refine h.trans ?_
  unfold State.recomputeJoin
  dsimp only
  split
  · exact State.setStation_keeps _ _ (Keeps.refl _) (.inl (by rw [ordinary_retarget]))
  · exact Keeps.refl _

@[simp] theorem State.markTaken_keeps {s t : State} (a : Nat) (h : Keeps s t) : Keeps s (t.markTaken a) := by
  refine h.trans ?_
  unfold State.markTaken
  simp (maxDischargeDepth := 80)

/-! ## Verdicts and weighing actions (R28 to R64) -/

@[simp] theorem State.evaluate_keeps {s t : State} (a : Nat) (h : Keeps s t) : Keeps s (t.evaluate a) := by
  refine h.trans ?_
  unfold State.evaluate
  dsimp only
  (repeat' split) <;> simp (maxDischargeDepth := 80)

@[simp] theorem State.weighOk_keeps {s t : State} (a code : Nat) (ch : Channel) (h : Keeps s t) : Keeps s (t.weighOk a code ch) := by
  refine h.trans ?_
  unfold State.weighOk
  simp (maxDischargeDepth := 80)

@[simp] theorem State.takeSamples_keeps {s t : State} (a : Nat) (rs : List Reading) (h : Keeps s t) : Keeps s (t.takeSamples a rs) := by
  refine h.trans ?_
  unfold State.takeSamples
  simp (maxDischargeDepth := 80)

@[simp] theorem State.takeZero_keeps {s t : State} (a : Nat) (h : Keeps s t) : Keeps s (t.takeZero a) := by
  refine h.trans ?_
  unfold State.takeZero
  dsimp only
  (repeat' split) <;> simp (maxDischargeDepth := 80)

@[simp] theorem State.takeTare_keeps {s t : State} (a : Nat) (h : Keeps s t) : Keeps s (t.takeTare a) := by
  refine h.trans ?_
  unfold State.takeTare
  dsimp only
  (repeat' split) <;> simp (maxDischargeDepth := 80)

@[simp] theorem State.takeClrtare_keeps {s t : State} (a : Nat) (h : Keeps s t) : Keeps s (t.takeClrtare a) := by
  refine h.trans ?_
  unfold State.takeClrtare
  simp (maxDischargeDepth := 80)

@[simp] theorem State.takePtare_keeps {s t : State} (a g : Nat) (h : Keeps s t) : Keeps s (t.takePtare a g) := by
  refine h.trans ?_
  unfold State.takePtare
  dsimp only
  (repeat' split) <;> simp (maxDischargeDepth := 80)

@[simp] theorem State.takeQty_keeps {s t : State} (a n : Nat) (h : Keeps s t) : Keeps s (t.takeQty a n) := by
  refine h.trans ?_
  unfold State.takeQty
  dsimp only
  (repeat' split) <;> simp (maxDischargeDepth := 80)

@[simp] theorem State.stnConfig_keeps {s t : State} (body : List Byte) (h : Keeps s t) : Keeps s (t.stnConfig body).1 := by
  refine h.trans ?_
  unfold State.stnConfig
  dsimp only
  (repeat' split) <;> simp (maxDischargeDepth := 80)

/-! ## Pins, copies and changes in flight (R72 to R101) -/

@[simp] theorem State.leavePinSet_keeps {s t : State} (a n : Nat) (h : Keeps s t) : Keeps s (t.leavePinSet a n) := by
  refine h.trans ?_
  unfold State.leavePinSet
  simp (maxDischargeDepth := 80)

@[simp] theorem State.unpin_keeps {s t : State} (a : Nat) (h : Keeps s t) : Keeps s (t.unpin a) := by
  refine h.trans ?_
  unfold State.unpin
  (repeat' split) <;> simp (maxDischargeDepth := 80)

@[simp] theorem State.releasePin_keeps {s t : State} (a : Nat) (h : Keeps s t) : Keeps s (t.releasePin a) := by
  refine h.trans ?_
  unfold State.releasePin
  (repeat' split) <;> simp (maxDischargeDepth := 80)

@[simp] theorem State.cancelPin_keeps {s t : State} (a : Nat) (h : Keeps s t) : Keeps s (t.cancelPin a) := by
  refine h.trans ?_
  unfold State.cancelPin
  simp (maxDischargeDepth := 80)

@[simp] theorem State.leaveHolders_keeps {s t : State} (a n : Nat) (h : Keeps s t) : Keeps s (t.leaveHolders a n) := by
  refine h.trans ?_
  unfold State.leaveHolders
  simp (maxDischargeDepth := 80)

@[simp] theorem State.removeCopy_keeps {s t : State} (a n : Nat) (h : Keeps s t) : Keeps s (t.removeCopy a n) := by
  refine h.trans ?_
  unfold State.removeCopy
  simp (maxDischargeDepth := 80)

@[simp] theorem State.markPurging_keeps {s t : State} (a n : Nat) (h : Keeps s t) : Keeps s (t.markPurging a n) := by
  refine h.trans ?_
  unfold State.markPurging
  simp (maxDischargeDepth := 80)

@[simp] theorem State.offerPurge_keeps {s t : State} (a n : Nat) (h : Keeps s t) : Keeps s (t.offerPurge a n).1 := by
  refine h.trans ?_
  have hw := ordinary_withdrawUnsent_le (isFillOf n) (t.station a).queue
  unfold State.offerPurge
  dsimp only
  split
  · exact Keeps.refl _
  · split
    · exact State.refill_keeps _ (State.removeCopy_keeps _ _ (State.setStation_keeps _ _ (Keeps.refl _) (.inl hw)))
    · split
      · rename_i hf
        exact State.markPurging_keeps _ _ (State.setStation_keeps _ _ (Keeps.refl _) (.inr (ordinary_append_le _ hf)))
      · split
        · rename_i hk
          refine State.markPurging_keeps _ _ (State.removeCopy_keeps _ _ (State.setStation_keeps _ _ (Keeps.refl _) ?_))
          left
          have h1 := ordinary_withdrawUnsent isFill isFill_ordinary (t.station a).queue (oldestFill_any hk)
          show ordinary (append _ _) ≤ _
          rw [ordinary_append]
          split <;> omega
        · exact State.markPurging_keeps _ _ (State.setStation_keeps _ _ (Keeps.refl _) (.inl (le_refl _)))

@[simp] theorem State.emptyMap_keeps {s t : State} (a : Nat) (h : Keeps s t) : Keeps s (t.emptyMap a) := by
  refine h.trans ?_
  unfold State.emptyMap
  simp (maxDischargeDepth := 80)

@[simp] theorem State.closeChange_keeps {s t : State} (n : Nat) (h : Keeps s t) : Keeps s (t.closeChange n) := by
  refine h.trans ?_
  unfold State.closeChange
  simp (maxDischargeDepth := 80)

@[simp] theorem State.noteSettled_keeps {s t : State} (c : Change) (x y z : Nat) (h : Keeps s t) : Keeps s (t.noteSettled c x y z) := by
  refine h.trans ?_
  unfold State.noteSettled
  simp (maxDischargeDepth := 80)

@[simp] theorem State.settleCheck_keeps {s t : State} (n : Nat) (h : Keeps s t) : Keeps s (t.settleCheck n) := by
  refine h.trans ?_
  unfold State.settleCheck
  (repeat' split) <;> simp (maxDischargeDepth := 80)

@[simp] theorem State.emptyCheck_keeps {s t : State} (n : Nat) (h : Keeps s t) : Keeps s (t.emptyCheck n) := by
  refine h.trans ?_
  unfold State.emptyCheck
  dsimp only
  (repeat' split) <;> simp (maxDischargeDepth := 80)

@[simp] theorem State.finish_keeps {s t : State} (l : List Nat) (h : Keeps s t) : Keeps s (t.finish l) := by
  refine h.trans ?_
  unfold State.finish
  simp (maxDischargeDepth := 80)

@[simp] theorem State.purgeHolders_keeps {s t : State} (n : Nat) (l : List Nat) (h : Keeps s t) : Keeps s (t.purgeHolders n l).1 := by
  refine h.trans ?_
  clear h
  induction l generalizing t with
  | nil => exact Keeps.refl _
  | cons x rest ih =>
    have ih' {u v : State} (k : Keeps u v) : Keeps u (v.purgeHolders n rest).1 := k.trans ih
    unfold State.purgeHolders
    dsimp only
    (repeat' split) <;> simp (maxDischargeDepth := 80) [ih']

@[simp] theorem State.openChange_keeps {s t : State} (n : Nat) (v : ChangeKind) (old : Nat) (h : Keeps s t) : Keeps s (t.openChange n v old) := by
  refine h.trans ?_
  unfold State.openChange
  simp (maxDischargeDepth := 80)

@[simp] theorem State.pin_keeps {s t : State} (a : Nat) (p : Snapshot) (h : Keeps s t) : Keeps s (t.pin a p) := by
  refine h.trans ?_
  unfold State.pin
  simp (maxDischargeDepth := 80)

@[simp] theorem State.updateCopy_keeps {s t : State} (a : Nat) (p : Snapshot) (h : Keeps s t) :
    Keeps s (t.updateCopy a p).1 := by
  refine h.trans ?_
  unfold State.updateCopy
  dsimp only
  split
  · simp
  · split
    · simp
    · split
      · simp
      · split
        · split <;> simp
        · split
          · simp
          · rename_i hf
            have h1 : 0 < free (t.station a).queue := by
              unfold stillNeeded at hf
              split at hf <;> omega
            simp (maxDischargeDepth := 20) [h1]

@[simp] theorem State.carrySelect_keeps {s t : State} (a : Nat) (p : Snapshot) (h : Keeps s t) : Keeps s (t.carrySelect a p) := by
  refine h.trans ?_
  unfold State.carrySelect
  dsimp only
  (repeat' split) <;> simp (maxDischargeDepth := 80)

@[simp] theorem State.takeSelect_keeps {s t : State} (a n : Nat) (h : Keeps s t) : Keeps s (t.takeSelect a n) := by
  refine h.trans ?_
  unfold State.takeSelect
  (repeat' split) <;> simp (maxDischargeDepth := 80)

@[simp] theorem State.takeClear_keeps {s t : State} (a : Nat) (h : Keeps s t) : Keeps s (t.takeClear a) := by
  refine h.trans ?_
  unfold State.takeClear
  simp (maxDischargeDepth := 80)

@[simp] theorem State.takePurged_keeps {s t : State} (a : Nat) (n : Option Nat) (h : Keeps s t) : Keeps s (t.takePurged a n) := by
  refine h.trans ?_
  unfold State.takePurged
  (repeat' split) <;> simp (maxDischargeDepth := 80)

/-! ## The article table (R67 to R82) -/

@[simp] theorem State.artCreate_keeps {s t : State} (body : List Byte) (h : Keeps s t) : Keeps s (t.artCreate body).1 := by
  refine h.trans ?_
  unfold State.artCreate
  dsimp only
  (repeat' split) <;> simp (maxDischargeDepth := 80)

@[simp] theorem State.changeArticle_keeps {s t : State} (n : Nat) (c : Content) (h : Keeps s t) : Keeps s (t.changeArticle n c) := by
  refine h.trans ?_
  unfold State.changeArticle
  simp (maxDischargeDepth := 80)

@[simp] theorem State.artChange_keeps {s t : State} (body : List Byte) (h : Keeps s t) : Keeps s (t.artChange body).1 := by
  refine h.trans ?_
  unfold State.artChange
  dsimp only
  (repeat' split) <;> simp (maxDischargeDepth := 80)

@[simp] theorem State.artRetire_keeps {s t : State} (body : List Byte) (h : Keeps s t) : Keeps s (t.artRetire body).1 := by
  refine h.trans ?_
  unfold State.artRetire
  dsimp only
  (repeat' split) <;> simp (maxDischargeDepth := 80)

@[simp] theorem State.artRead_keeps {s t : State} (body : List Byte) (h : Keeps s t) : Keeps s (t.artRead body).1 := by
  unfold State.artRead
  (repeat' split) <;> exact h

@[simp] theorem State.takeOverride_keeps {s t : State} (a n price : Nat) (h : Keeps s t) : Keeps s (t.takeOverride a n price) := by
  refine h.trans ?_
  unfold State.takeOverride
  dsimp only
  (repeat' split) <;> simp (maxDischargeDepth := 80)

/-! ## Totals and watch channels (R164 to R180) -/

@[simp] theorem State.setLiveBank_keeps {s t : State} (b : Bank) (h : Keeps s t) (hb : b.sound) :
    Keeps s (t.setLiveBank b) := by
  refine State.totalsUpdate_keeps h ?_ (fun ht => State.setLiveBank_sound b ht hb)
  unfold State.setLiveBank
  split <;> rfl

@[simp] theorem State.account_keeps {s t : State} (cause ticket : Nat) (f : Posting → Posting) (h : Keeps s t)
    (hf : ∀ p : Posting, p.sound → (f p).sound) : Keeps s (t.account cause ticket f) := by
  have hs := fun hx : t.tu.sound => State.account_sound cause ticket f hx hf
  refine h.trans ⟨?_, ?_, hs, ?_, ?_, ?_⟩
  all_goals
    clear hs
    unfold State.account State.setLiveBank
    dsimp only
    (repeat' split) <;> first
      | exact id
      | exact OfficePort.place_sound _ _ _
      | (intro hx; rw [State.raise, OfficePort.place_settings]; exact hx)

@[simp] theorem State.post_keeps {s t : State} (k : Ticket) (a : Nat) (h : Keeps s t) : Keeps s (t.post k a) :=
  State.account_keeps _ _ _ h (fun _ => Posting.addTicket_sound k a)

@[simp] theorem State.accountAbandoned_keeps {s t : State} (k : Ticket) (h : Keeps s t) :
    Keeps s (t.accountAbandoned k) :=
  State.account_keeps _ _ _ h (fun _ => Posting.addAbandoned_sound k)

@[simp] theorem State.totClose_keeps {s t : State} (body : List Byte) (h : Keeps s t) : Keeps s (t.totClose body).1 := by
  refine State.totalsUpdate_keeps h ?_ (State.totClose_sound body)
  unfold State.totClose
  (repeat' split) <;> rfl

@[simp] theorem State.totClear_keeps {s t : State} (body : List Byte) (h : Keeps s t) : Keeps s (t.totClear body).1 := by
  refine State.totalsUpdate_keeps h ?_ (State.totClear_sound body)
  unfold State.totClear
  (repeat' split) <;> rfl

@[simp] theorem State.wchSet_keeps {s t : State} (body : List Byte) (h : Keeps s t) : Keeps s (t.wchSet body).1 := by
  refine h.trans ?_
  unfold State.wchSet
  dsimp only
  (repeat' split) <;> simp (maxDischargeDepth := 80)

@[simp] theorem State.noteMatches_keeps {s t : State} (r : WatchResult) (ev : WatchEvent) (outcome scale clerk ticket article price p : Nat) (h : Keeps s t) : Keeps s (t.noteMatches r ev outcome scale clerk ticket article price p) := by
  refine h.trans ?_
  unfold State.noteMatches
  dsimp only
  (repeat' split) <;> simp (maxDischargeDepth := 80)

@[simp] theorem State.totRead_keeps {s t : State} (body : List Byte) (h : Keeps s t) : Keeps s (t.totRead body).1 := by
  unfold State.totRead
  dsimp only
  (repeat' split) <;> exact h

@[simp] theorem State.wchRead_keeps {s t : State} (body : List Byte) (h : Keeps s t) : Keeps s (t.wchRead body).1 := by
  unfold State.wchRead
  (repeat' split) <;> exact h

/-! ## Clerks and tickets (R108 to R131) -/

@[simp] theorem State.mirror_keeps {s t : State} (a : Nat) (c x : Option Nat) (h : Keeps s t) : Keeps s (t.mirror a c x) := by
  refine h.trans ?_
  unfold State.mirror
  simp (maxDischargeDepth := 80)

@[simp] theorem State.setActive_keeps {s t : State} (c : Nat) (x : Option Nat) (h : Keeps s t) : Keeps s (t.setActive c x) := by
  refine h.trans ?_
  unfold State.setActive
  dsimp only
  (repeat' split) <;> simp (maxDischargeDepth := 80)

@[simp] theorem State.deactivate_keeps {s t : State} (k : Ticket) (h : Keeps s t) : Keeps s (t.deactivate k) := by
  refine h.trans ?_
  unfold State.deactivate
  (repeat' split) <;> simp (maxDischargeDepth := 80)

@[simp] theorem State.logoutScale_keeps {s t : State} (a : Nat) (h : Keeps s t) : Keeps s (t.logoutScale a) := by
  refine h.trans ?_
  unfold State.logoutScale
  (repeat' split) <;> simp (maxDischargeDepth := 80)

@[simp] theorem State.logoutRelease_keeps {s t : State} (a : Nat) (h : Keeps s t) : Keeps s (t.logoutRelease a) := by
  refine h.trans ?_
  unfold State.logoutRelease
  (repeat' split) <;> simp (maxDischargeDepth := 80)

@[simp] theorem State.carryLogin_keeps {s t : State} (a c : Nat) (h : Keeps s t) : Keeps s (t.carryLogin a c) := by
  refine h.trans ?_
  unfold State.carryLogin
  dsimp only
  (repeat' split) <;> simp (maxDischargeDepth := 80)

@[simp] theorem State.takeLogin_keeps {s t : State} (a c : Nat) (h : Keeps s t) : Keeps s (t.takeLogin a c) := by
  refine h.trans ?_
  unfold State.takeLogin
  (repeat' split) <;> simp (maxDischargeDepth := 80)

@[simp] theorem State.takeLogout_keeps {s t : State} (a : Nat) (h : Keeps s t) : Keeps s (t.takeLogout a) := by
  refine h.trans ?_
  unfold State.takeLogout
  simp (maxDischargeDepth := 80)

@[simp] theorem State.dropRef_keeps {s t : State} (i : Item) (h : Keeps s t) : Keeps s (t.dropRef i) := by
  refine h.trans ?_
  unfold State.dropRef
  simp (maxDischargeDepth := 80)

@[simp] theorem State.removeTicket_keeps {s t : State} (k : Ticket) (h : Keeps s t) : Keeps s (t.removeTicket k) := by
  refine h.trans ?_
  unfold State.removeTicket
  simp (maxDischargeDepth := 60) [List.filter_sublist.map]

@[simp] theorem State.abandon_keeps {s t : State} (k : Ticket) (h : Keeps s t) : Keeps s (t.abandon k) := by
  refine h.trans ?_
  unfold State.abandon
  simp (maxDischargeDepth := 80)

@[simp] theorem State.park_keeps {s t : State} (k : Ticket) (h : Keeps s t) : Keeps s (t.park k) := by
  refine h.trans ?_
  unfold State.park
  simp (maxDischargeDepth := 80)

@[simp] theorem State.releaseTicket_keeps {s t : State} (k : Ticket) (h : Keeps s t) : Keeps s (t.releaseTicket k) := by
  refine h.trans ?_
  unfold State.releaseTicket
  simp (maxDischargeDepth := 80)

@[simp] theorem State.takeNew_keeps {s t : State} (a : Nat) (h : Keeps s t) : Keeps s (t.takeNew a) := by
  refine h.trans ?_
  unfold State.takeNew
  split
  · rename_i hr _
    have hn := State.tableFull_false.mp (State.openingRefused_none hr)
    simp (maxDischargeDepth := 60) [hn]
  · simp
  · simp

@[simp] theorem State.switchTo_keeps {s t : State} (a c n : Nat) (h : Keeps s t) : Keeps s (t.switchTo a c n) := by
  refine h.trans ?_
  unfold State.switchTo
  dsimp only
  (repeat' split) <;> simp (maxDischargeDepth := 80)

@[simp] theorem State.takeSwitch_keeps {s t : State} (a n : Nat) (h : Keeps s t) : Keeps s (t.takeSwitch a n) := by
  refine h.trans ?_
  unfold State.takeSwitch
  (repeat' split) <;> simp (maxDischargeDepth := 80)

@[simp] theorem State.addRef_keeps {s t : State} (n : Nat) (h : Keeps s t) : Keeps s (t.addRef n) := by
  refine h.trans ?_
  unfold State.addRef
  simp (maxDischargeDepth := 80)

@[simp] theorem State.carryAdd_keeps {s t : State} (a : Nat) (k : Ticket) (i : Item) (x y : Bool) (h : Keeps s t) : Keeps s (t.carryAdd a k i x y) := by
  refine h.trans ?_
  unfold State.carryAdd
  simp (maxDischargeDepth := 80)

@[simp] theorem State.watchedAdd_keeps {s t : State} (a : Nat) (k : Ticket) (i : Item) (h : Keeps s t) : Keeps s (t.watchedAdd a k i) := by
  refine h.trans ?_
  unfold State.watchedAdd
  dsimp only
  (repeat' split) <;> simp (maxDischargeDepth := 80)

@[simp] theorem State.addTo_keeps {s t : State} (a st : Nat) (k : Ticket) (h : Keeps s t) : Keeps s (t.addTo a st k) := by
  refine h.trans ?_
  unfold State.addTo
  (repeat' split) <;> simp (maxDischargeDepth := 80)

@[simp] theorem State.takeAdd_keeps {s t : State} (a st : Nat) (h : Keeps s t) : Keeps s (t.takeAdd a st) := by
  refine h.trans ?_
  unfold State.takeAdd
  (repeat' split) <;> simp (maxDischargeDepth := 80)

@[simp] theorem State.carryVoid_keeps {s t : State} (a : Nat) (k : Ticket) (i : Item) (p : Nat) (x y : Bool) (h : Keeps s t) : Keeps s (t.carryVoid a k i p x y) := by
  refine h.trans ?_
  unfold State.carryVoid
  simp (maxDischargeDepth := 80)

@[simp] theorem State.watchedVoid_keeps {s t : State} (a : Nat) (k : Ticket) (i : Item) (p : Nat) (h : Keeps s t) : Keeps s (t.watchedVoid a k i p) := by
  refine h.trans ?_
  unfold State.watchedVoid
  dsimp only
  (repeat' split) <;> simp (maxDischargeDepth := 80)

@[simp] theorem State.takeVoidItem_keeps {s t : State} (a p : Nat) (h : Keeps s t) : Keeps s (t.takeVoidItem a p) := by
  refine h.trans ?_
  unfold State.takeVoidItem
  (repeat' split) <;> simp (maxDischargeDepth := 80)

@[simp] theorem State.takeVoidTicket_keeps {s t : State} (a : Nat) (h : Keeps s t) : Keeps s (t.takeVoidTicket a) := by
  refine h.trans ?_
  unfold State.takeVoidTicket
  (repeat' split) <;> simp (maxDischargeDepth := 80)

@[simp] theorem State.takeRelease_keeps {s t : State} (a n : Nat) (h : Keeps s t) : Keeps s (t.takeRelease a n) := by
  refine h.trans ?_
  unfold State.takeRelease
  (repeat' split) <;> simp (maxDischargeDepth := 80)

@[simp] theorem State.clkEnrol_keeps {s t : State} (body : List Byte) (h : Keeps s t) : Keeps s (t.clkEnrol body).1 := by
  refine h.trans ?_
  unfold State.clkEnrol
  dsimp only
  (repeat' split) <;> simp (maxDischargeDepth := 80)

@[simp] theorem State.removeClerk_keeps {s t : State} (c : Nat) (h : Keeps s t) : Keeps s (t.removeClerk c) := by
  refine h.trans ?_
  unfold State.removeClerk
  (repeat' split) <;> simp (maxDischargeDepth := 80)

@[simp] theorem State.clkRemove_keeps {s t : State} (body : List Byte) (h : Keeps s t) : Keeps s (t.clkRemove body).1 := by
  refine h.trans ?_
  unfold State.clkRemove
  dsimp only
  (repeat' split) <;> simp (maxDischargeDepth := 80)

@[simp] theorem State.clkRead_keeps {s t : State} (body : List Byte) (h : Keeps s t) : Keeps s (t.clkRead body).1 := by
  unfold State.clkRead
  dsimp only
  (repeat' split) <;> exact h

@[simp] theorem State.tktRead_keeps {s t : State} (body : List Byte) (h : Keeps s t) : Keeps s (t.tktRead body).1 := by
  unfold State.tktRead
  dsimp only
  (repeat' split) <;> exact h

@[simp] theorem State.tktCancel_keeps {s t : State} (body : List Byte) (h : Keeps s t) : Keeps s (t.tktCancel body).1 := by
  refine h.trans ?_
  unfold State.tktCancel
  dsimp only
  (repeat' split) <;> simp (maxDischargeDepth := 80)

@[simp] theorem State.tktRelease_keeps {s t : State} (body : List Byte) (h : Keeps s t) : Keeps s (t.tktRelease body).1 := by
  refine h.trans ?_
  unfold State.tktRelease
  dsimp only
  (repeat' split) <;> simp (maxDischargeDepth := 80)

/-! ## Print jobs (R134 to R147) -/

@[simp] theorem State.assignTag_keeps {s t : State} (a tag : Nat) (h : Keeps s t) : Keeps s (t.assignTag a tag) := by
  refine h.trans ?_
  unfold State.assignTag
  simp (maxDischargeDepth := 80)

@[simp] theorem State.closeEmpty_keeps {s t : State} (a : Nat) (k : Ticket) (h : Keeps s t) : Keeps s (t.closeEmpty a k) := by
  refine h.trans ?_
  unfold State.closeEmpty
  simp (maxDischargeDepth := 80)

@[simp] theorem State.closePrint_keeps {s t : State} (a : Nat) (k : Ticket) (h : Keeps s t) : Keeps s (t.closePrint a k) := by
  refine h.trans ?_
  unfold State.closePrint
  simp (maxDischargeDepth := 80)

@[simp] theorem State.carryClose_keeps {s t : State} (a : Nat) (k : Ticket) (h : Keeps s t) : Keeps s (t.carryClose a k) := by
  refine h.trans ?_
  unfold State.carryClose
  (repeat' split) <;> simp (maxDischargeDepth := 80)

@[simp] theorem State.takeClose_keeps {s t : State} (a : Nat) (h : Keeps s t) : Keeps s (t.takeClose a) := by
  refine h.trans ?_
  unfold State.takeClose
  (repeat' split) <;> simp (maxDischargeDepth := 80)

@[simp] theorem State.carryLabel_keeps {s t : State} (a c : Nat) (p : Snapshot) (i : Item) (y : Bool) (h : Keeps s t)
    (hn : t.sc.tickets.length < 64) : Keeps s (t.carryLabel a c p i y) := by
  refine h.trans ?_
  unfold State.carryLabel
  simp (maxDischargeDepth := 60) [hn]

@[simp] theorem State.watchedLabel_keeps {s t : State} (a c : Nat) (p : Snapshot) (i : Item) (h : Keeps s t)
    (hn : t.sc.tickets.length < 64) : Keeps s (t.watchedLabel a c p i) := by
  refine h.trans ?_
  unfold State.watchedLabel
  dsimp only
  have hk (r : WatchResult) (p : Snapshot) (i : Item) (y : Bool) : Keeps t ((t.countMatches r).carryLabel a c p i y) :=
    State.carryLabel_keeps a c p i y (State.countMatches_keeps r (Keeps.refl t)) hn
  (repeat' split) <;> simp (maxDischargeDepth := 60) [hk]

@[simp] theorem State.carryProofLabel_keeps {s t : State} (a : Nat) (p : Snapshot) (i : Item) (h : Keeps s t) : Keeps s (t.carryProofLabel a p i) := by
  refine h.trans ?_
  unfold State.carryProofLabel
  simp (maxDischargeDepth := 80)

@[simp] theorem State.takeLabel_keeps {s t : State} (a st : Nat) (h : Keeps s t) : Keeps s (t.takeLabel a st) := by
  refine h.trans ?_
  unfold State.takeLabel
  split
  · simp
  · split
    · simp
    · split
      · simp
      · split
        · simp
        · rename_i hn
          have hn' := State.tableFull_false.mp (by simpa using hn)
          simp [hn']

@[simp] theorem State.failJob_keeps {s t : State} (k : Ticket) (a tag cause : Nat) (h : Keeps s t) : Keeps s (t.failJob k a tag cause) := by
  refine h.trans ?_
  unfold State.failJob
  simp (maxDischargeDepth := 80)

@[simp] theorem State.failJobs_keeps {s t : State} (a : Nat) (l : List Ticket) (h : Keeps s t) : Keeps s (t.failJobs a l) := by
  refine h.trans ?_
  clear h
  induction l generalizing t with
  | nil => exact Keeps.refl _
  | cons x rest ih =>
    have ih' {u v : State} (k : Keeps u v) : Keeps u (v.failJobs a rest) := k.trans ih
    unfold State.failJobs
    (repeat' split) <;> simp (maxDischargeDepth := 80) [ih']

@[simp] theorem State.unmatchedPrinted_keeps {s t : State} (a tag : Nat) (h : Keeps s t) : Keeps s (t.unmatchedPrinted a tag) := by
  refine h.trans ?_
  unfold State.unmatchedPrinted
  dsimp only
  (repeat' split) <;> simp (maxDischargeDepth := 80)

@[simp] theorem State.takePrinted_keeps {s t : State} (a tag : Nat) (ok : Bool) (h : Keeps s t) : Keeps s (t.takePrinted a tag ok) := by
  refine h.trans ?_
  unfold State.takePrinted
  (repeat' split) <;> simp (maxDischargeDepth := 80)

@[simp] theorem State.withdrawPrint_keeps {s t : State} (a tag : Nat) (h : Keeps s t) :
    Keeps s (t.withdrawPrint a tag) := by
  refine h.trans ?_
  unfold State.withdrawPrint
  dsimp only
  split
  · exact State.refill_keeps _ (State.setStation_keeps _ _ (Keeps.refl _) (.inl (ordinary_withdrawUnsent_le _ _)))
  · exact Keeps.refl _

@[simp] theorem State.departJobs_keeps {s t : State} (a : Nat) (h : Keeps s t) : Keeps s (t.departJobs a) := by
  refine h.trans ?_
  unfold State.departJobs
  simp (maxDischargeDepth := 80)

/-! ## The customer queue and the rush level (R149 to R161) -/

@[simp] theorem State.recompute_keeps {s t : State} (l : List Ticket) (h : Keeps s t) : Keeps s (t.recompute l) := by
  refine h.trans ?_
  clear h
  induction l generalizing t with
  | nil => exact Keeps.refl _
  | cons x rest ih =>
    have ih' {u v : State} (k : Keeps u v) : Keeps u (v.recompute rest) := k.trans ih
    unfold State.recompute
    dsimp only
    (repeat' split) <;> simp (maxDischargeDepth := 80) [ih']

@[simp] theorem State.changeLevel_keeps {s t : State} (v : RushLevel) (h : Keeps s t) : Keeps s (t.changeLevel v) := by
  refine h.trans ?_
  unfold State.changeLevel
  simp (maxDischargeDepth := 80)

@[simp] theorem State.examine_keeps {s t : State} (h : Keeps s t) : Keeps s t.examine := by
  refine h.trans ?_
  unfold State.examine
  (repeat' split) <;> simp (maxDischargeDepth := 80)

@[simp] theorem State.refuseTake_keeps {s t : State} (c : Nat) (h : Keeps s t) : Keeps s (t.refuseTake c) := by
  refine h.trans ?_
  unfold State.refuseTake
  simp (maxDischargeDepth := 80)

@[simp] theorem State.issue_keeps {s t : State} (q : Nat) (h : Keeps s t) (hw : t.qc.waiting.length < 64) :
    Keeps s (t.issue q) := by
  refine h.trans ?_
  unfold State.issue
  have hx : (t.qc.waiting ++ [q]).length ≤ 64 := by simp; omega
  refine State.reply_keeps _ _ _ _ (State.offerCallout_keeps (State.examine_keeps ?_))
  exact State.queueUpdate_keeps _ (Keeps.refl _) (.inr hx) (.inl (le_refl _))

@[simp] theorem State.takeTake_keeps {s t : State} (h : Keeps s t) : Keeps s t.takeTake := by
  refine h.trans ?_
  unfold State.takeTake
  split
  · simp
  · rename_i hw
    split
    · simp
    · exact State.issue_keeps _ (Keeps.refl _) (by omega)

@[simp] theorem State.carryNext_keeps {s t : State} (a c q : Nat) (r : List Nat) (h : Keeps s t)
    (hn : t.sc.tickets.length < 64) (hw : r.length ≤ t.qc.waiting.length) : Keeps s (t.carryNext a c q r) := by
  refine h.trans ?_
  unfold State.carryNext
  simp (maxDischargeDepth := 60) [hn, hw]

@[simp] theorem State.takeNext_keeps {s t : State} (a : Nat) (h : Keeps s t) : Keeps s (t.takeNext a) := by
  refine h.trans ?_
  unfold State.takeNext
  split
  · simp
  · simp
  · simp
  · rename_i hr _ hw
    have hn := State.tableFull_false.mp (State.openingRefused_none hr)
    exact State.carryNext_keeps _ _ _ _ (Keeps.refl _) hn (by rw [hw]; simp)

@[simp] theorem State.takeRecall_keeps {s t : State} (a : Nat) (h : Keeps s t) : Keeps s (t.takeRecall a) := by
  refine h.trans ?_
  unfold State.takeRecall
  (repeat' split) <;> simp (maxDischargeDepth := 80)

@[simp] theorem State.carrySkip_keeps {s t : State} (a : Nat) (k : Ticket) (q : Nat) (h : Keeps s t) : Keeps s (t.carrySkip a k q) := by
  refine h.trans ?_
  unfold State.carrySkip
  dsimp only
  (repeat' split) <;> simp (maxDischargeDepth := 80)

@[simp] theorem State.takeSkip_keeps {s t : State} (a : Nat) (h : Keeps s t) : Keeps s (t.takeSkip a) := by
  refine h.trans ?_
  unfold State.takeSkip
  (repeat' split) <;> simp (maxDischargeDepth := 80)

@[simp] theorem State.queRead_keeps {s t : State} (body : List Byte) (h : Keeps s t) : Keeps s (t.queRead body).1 := by
  unfold State.queRead
  (repeat' split) <;> exact h

@[simp] theorem State.queReset_keeps {s t : State} (body : List Byte) (h : Keeps s t) : Keeps s (t.queReset body).1 := by
  refine h.trans ?_
  unfold State.queReset
  dsimp only
  (repeat' split) <;> simp (maxDischargeDepth := 80)

/-! ## The counter line (R1 to R24) -/

@[simp] theorem State.beginVisit_keeps {s t : State} (a : Nat) (h : Keeps s t) : Keeps s (t.beginVisit a) := by
  refine h.trans ?_
  unfold State.beginVisit
  dsimp only
  have hm := ordinary_markHead (t.station a).queue
  have hl (x : LineController) (hx : x.stations = t.lc.stations) : State.station { t with lc := x } a = t.station a := by
    unfold State.station
    rw [hx]
  split
  · simp
  · split
    · simp
    · refine State.openVisit_keeps _ (State.setStation_keeps _ _ (State.lineUpdate_keeps _ (Keeps.refl _) rfl) (.inl ?_))
      rw [hl _ rfl]
      exact le_of_eq hm

@[simp] theorem State.beginSlot_keeps {s t : State} (h : Keeps s t) : Keeps s t.beginSlot := by
  refine h.trans ?_
  unfold State.beginSlot
  (repeat' split) <;> simp (maxDischargeDepth := 80)

@[simp] theorem State.nextSlot_keeps {s t : State} (h : Keeps s t) : Keeps s t.nextSlot := by
  refine h.trans ?_
  unfold State.nextSlot
  (repeat' split) <;> simp (maxDischargeDepth := 80)

@[simp] theorem State.departScale_keeps {s t : State} (a : Nat) (h : Keeps s t) : Keeps s (t.departScale a) := by
  refine h.trans ?_
  unfold State.departScale
  simp (maxDischargeDepth := 80)

@[simp] theorem State.leaveService_keeps {s t : State} (a : Nat) (v : StationState) (h : Keeps s t) :
    Keeps s (t.leaveService a v) := by
  refine h.trans ?_
  unfold State.leaveService
  dsimp only
  have hd : Keeps t (t.setStation a (departed (t.station a) v)) :=
    State.setStation_keeps _ _ (Keeps.refl _) (.inr (Nat.zero_le 8))
  split <;> simp [hd]

@[simp] theorem State.shiftService_keeps {s t : State} (a : Nat) (v : StationState) (h : Keeps s t) : Keeps s (t.shiftService a v) := by
  refine h.trans ?_
  unfold State.shiftService
  dsimp only
  (repeat' split) <;> simp (maxDischargeDepth := 80)

@[simp] theorem State.moveInService_keeps {s t : State} (a : Nat) (v : StationState) (h : Keeps s t) : Keeps s (t.moveInService a v) := by
  refine h.trans ?_
  unfold State.moveInService
  simp (maxDischargeDepth := 80)

@[simp] theorem State.scoreDetach_keeps {s t : State} (a : Nat) (h : Keeps s t) : Keeps s (t.scoreDetach a) := by
  refine h.trans ?_
  unfold State.scoreDetach
  dsimp only
  (repeat' split) <;> simp (maxDischargeDepth := 80)

@[simp] theorem State.raiseScore_keeps {s t : State} (a : Nat) (h : Keeps s t) : Keeps s (t.raiseScore a) := by
  refine h.trans ?_
  unfold State.raiseScore
  dsimp only
  (repeat' split) <;> simp (maxDischargeDepth := 80)

@[simp] theorem State.lowerScore_keeps {s t : State} (a : Nat) (h : Keeps s t) : Keeps s (t.lowerScore a) := by
  refine h.trans ?_
  unfold State.lowerScore
  dsimp only
  (repeat' split) <;> simp (maxDischargeDepth := 80)

@[simp] theorem State.goAbsent_keeps {s t : State} (a : Nat) (h : Keeps s t) : Keeps s (t.goAbsent a) := by
  refine h.trans ?_
  unfold State.goAbsent
  (repeat' split) <;> simp (maxDischargeDepth := 80)

@[simp] theorem State.miss_keeps {s t : State} (a : Nat) (h : Keeps s t) : Keeps s (t.miss a) := by
  refine h.trans ?_
  unfold State.miss
  dsimp only
  (repeat' split) <;> simp (maxDischargeDepth := 80)

@[simp] theorem State.failedCheck_keeps {s t : State} (v : Visit) (h : Keeps s t) : Keeps s (t.failedCheck v) := by
  refine h.trans ?_
  unfold State.failedCheck
  dsimp only
  (repeat' split) <;> simp (maxDischargeDepth := 80)

@[simp] theorem State.takeUnknown_keeps {s t : State} (a c : Nat) (h : Keeps s t) : Keeps s (t.takeUnknown a c) := by
  refine h.trans ?_
  unfold State.takeUnknown
  (repeat' split) <;> simp (maxDischargeDepth := 80)

@[simp] theorem State.takeAction_keeps {s t : State} (a : Nat) (act : Action) (h : Keeps s t) : Keeps s (t.takeAction a act) := by
  refine h.trans ?_
  unfold State.takeAction
  (repeat' split) <;> simp (maxDischargeDepth := 80)

@[simp] theorem State.deliver_keeps {s t : State} {f : State → State} (a : Nat) (k : StationKind) (room : Bool)
    (h : Keeps s t) (hf : ∀ u, Keeps u (f u)) : Keeps s (t.deliver a k room f) := by
  unfold State.deliver
  split
  · exact (State.markTaken_keeps a h).trans (hf _)
  · exact h

@[simp] theorem State.deliverAction_keeps {s t : State} {f : State → State} (a : Nat) (h : Keeps s t)
    (hf : ∀ u, Keeps u (f u)) : Keeps s (t.deliverAction a f) := by
  unfold State.deliverAction
  split
  · exact State.deliver_keeps a _ _ h hf
  · exact h

@[simp] theorem State.takeMessage_keeps {s t : State} (a : Nat) (x : UpMsg) (h : Keeps s t) : Keeps s (t.takeMessage a x) := by
  refine h.trans ?_
  unfold State.takeMessage
  (repeat' split) <;> simp (maxDischargeDepth := 80)

@[simp] theorem State.completeJoin_keeps {s t : State} (a : Nat) (v : StationState) (h : Keeps s t) : Keeps s (t.completeJoin a v) := by
  refine h.trans ?_
  unfold State.completeJoin
  dsimp only
  (repeat' split) <;> simp (maxDischargeDepth := 80)

@[simp] theorem State.removeHead_keeps {s t : State} (a : Nat) (e : Entry) (r : List Entry) (h : Keeps s t)
    (hq : (t.station a).queue = e :: r) : Keeps s (t.removeHead a e r) := by
  refine h.trans ?_
  unfold State.removeHead
  dsimp only
  have hs : Keeps t (t.setStation a { t.station a with queue := r, dSeq := !(t.station a).dSeq }) := by
    refine State.setStation_keeps _ _ (Keeps.refl _) (.inl ?_)
    rw [hq, ordinary_cons]
    exact Nat.le_add_left _ _
  split <;> simp [hs]

@[simp] theorem State.acknowledge_keeps {s t : State} (a : Nat) (d : Bool) (h : Keeps s t) :
    Keeps s (t.acknowledge a d) := by
  refine h.trans ?_
  unfold State.acknowledge
  dsimp only
  split
  · simp
  · rename_i hq
    split
    · exact State.removeHead_keeps _ _ _ (Keeps.refl _) hq
    · simp

@[simp] theorem State.applyHold_keeps {s t : State} (a : Nat) (y : Bool) (h : Keeps s t) : Keeps s (t.applyHold a y) := by
  refine h.trans ?_
  unfold State.applyHold
  (repeat' split) <;> simp (maxDischargeDepth := 80)

@[simp] theorem State.goodReply_keeps {s t : State} (a : Nat) (r : Reply) (h : Keeps s t) : Keeps s (t.goodReply a r) := by
  refine h.trans ?_
  unfold State.goodReply
  dsimp only
  (repeat' split) <;> simp (maxDischargeDepth := 80)

@[simp] theorem State.startJoin_keeps {s t : State} (a : Nat) (h : Keeps s t) : Keeps s (t.startJoin a) := by
  refine h.trans ?_
  unfold State.startJoin
  dsimp only
  have hj (target : StationState) (l : Option ScaleLayout) :
      ordinary [{ msg := .setmode target true l, sent := false }] ≤ 8 := by
    simp [ordinary_cons, isSetmode]
  split <;> simp (maxDischargeDepth := 20) [hj]

@[simp] theorem State.useReply_keeps {s t : State} (v : Visit) (l : List Byte) (h : Keeps s t) : Keeps s (t.useReply v l) := by
  refine h.trans ?_
  unfold State.useReply
  (repeat' split) <;> simp (maxDischargeDepth := 80)

@[simp] theorem State.takeReply_keeps {s t : State} (l : List Byte) (h : Keeps s t) : Keeps s (t.takeReply l) := by
  refine h.trans ?_
  unfold State.takeReply
  (repeat' split) <;> simp (maxDischargeDepth := 80)

@[simp] theorem State.windowExpiry_keeps {s t : State} (h : Keeps s t) : Keeps s t.windowExpiry := by
  refine h.trans ?_
  unfold State.windowExpiry
  dsimp only
  (repeat' split) <;> simp (maxDischargeDepth := 80)

@[simp] theorem State.incompleteReply_keeps {s t : State} (h : Keeps s t) : Keeps s t.incompleteReply := by
  refine h.trans ?_
  unfold State.incompleteReply
  (repeat' split) <;> simp (maxDischargeDepth := 80)

@[simp] theorem State.openWindow_keeps {s t : State} (h : Keeps s t) : Keeps s t.openWindow := by
  refine h.trans ?_
  unfold State.openWindow
  (repeat' split) <;> simp (maxDischargeDepth := 80)

@[simp] theorem State.turnOff_keeps {s t : State} (a : Nat) (h : Keeps s t) : Keeps s (t.turnOff a) := by
  refine h.trans ?_
  unfold State.turnOff
  (repeat' split) <;> simp (maxDischargeDepth := 80)

@[simp] theorem State.applyMode_keeps {s t : State} (a : Nat) (x : Mode) (h : Keeps s t) : Keeps s (t.applyMode a x) := by
  refine h.trans ?_
  unfold State.applyMode
  (repeat' split) <;> simp (maxDischargeDepth := 80)

@[simp] theorem State.dropVisit_keeps {s t : State} (h : Keeps s t) : Keeps s t.dropVisit := by
  refine h.trans ?_
  unfold State.dropVisit
  (repeat' split) <;> simp (maxDischargeDepth := 80)

@[simp] theorem State.setMode_keeps {s t : State} (a : Nat) (x : Mode) (h : Keeps s t) : Keeps s (t.setMode a x) := by
  refine h.trans ?_
  unfold State.setMode
  dsimp only
  (repeat' split) <;> simp (maxDischargeDepth := 80)

@[simp] theorem State.stnMode_keeps {s t : State} (body : List Byte) (h : Keeps s t) : Keeps s (t.stnMode body).1 := by
  refine h.trans ?_
  unfold State.stnMode
  dsimp only
  (repeat' split) <;> simp (maxDischargeDepth := 80)

@[simp] theorem State.stnRead_keeps {s t : State} (body : List Byte) (h : Keeps s t) : Keeps s (t.stnRead body).1 := by
  unfold State.stnRead
  dsimp only
  (repeat' split) <;> exact h

/-! ## Deadlines and the clock (R102, R126, R143, R157, R186) -/

@[simp] theorem State.forceDetach_keeps {s t : State} (a : Nat) (h : Keeps s t) : Keeps s (t.forceDetach a) := by
  refine h.trans ?_
  unfold State.forceDetach
  simp (maxDischargeDepth := 80)

@[simp] theorem State.noteDetached_keeps {s t : State} (n : Nat) (l : List Nat) (h : Keeps s t) : Keeps s (t.noteDetached n l) := by
  refine h.trans ?_
  unfold State.noteDetached
  simp (maxDischargeDepth := 80)

@[simp] theorem State.forceSettle_keeps {s t : State} (c : Change) (h : Keeps s t) : Keeps s (t.forceSettle c) := by
  refine h.trans ?_
  unfold State.forceSettle
  simp (maxDischargeDepth := 80)

@[simp] theorem State.idleExpired_keeps {s t : State} (k : Ticket) (h : Keeps s t) : Keeps s (t.idleExpired k) := by
  refine h.trans ?_
  unfold State.idleExpired
  simp (maxDischargeDepth := 80)

@[simp] theorem State.expiryExpired_keeps {s t : State} (k : Ticket) (h : Keeps s t) : Keeps s (t.expiryExpired k) := by
  refine h.trans ?_
  unfold State.expiryExpired
  simp (maxDischargeDepth := 80)

@[simp] theorem State.printExpired_keeps {s t : State} (k : Ticket) (job : PrintJob) (h : Keeps s t) : Keeps s (t.printExpired k job) := by
  refine h.trans ?_
  unfold State.printExpired
  simp (maxDischargeDepth := 80)

@[simp] theorem State.expire_keeps {s t : State} {f : State → State} (n : Nat) (h : Keeps s t)
    (hf : ∀ u, Keeps u (f u)) : Keeps s (t.expire n f) := by
  have hr := State.reach_keeps n h
  unfold State.expire
  split
  · exact hr
  · exact hr.trans (hf _)

@[simp] theorem State.residencyExpired_keeps {s t : State} (h : Keeps s t) : Keeps s t.residencyExpired := by
  refine h.trans ?_
  unfold State.residencyExpired
  dsimp only
  (repeat' split) <;> simp (maxDischargeDepth := 80)

@[simp] theorem State.takeDeadline_keeps {s t : State} (d : Deadline) (h : Keeps s t) : Keeps s (t.takeDeadline d) := by
  refine h.trans ?_
  unfold State.takeDeadline
  (repeat' split) <;> simp (maxDischargeDepth := 80)

@[simp] theorem State.deadlineRow_keeps {s t : State} (d : Deadline) (h : Keeps s t) : Keeps s (t.deadlineRow d) := by
  refine h.trans ?_
  unfold State.deadlineRow
  (repeat' split) <;> simp (maxDischargeDepth := 80)

@[simp] theorem State.takeIfDue_keeps {s t : State} (d : Deadline) (h : Keeps s t) : Keeps s (t.takeIfDue d) := by
  refine h.trans ?_
  unfold State.takeIfDue
  (repeat' split) <;> simp (maxDischargeDepth := 80)

@[simp] theorem State.takeDue_keeps {s t : State} (h : Keeps s t) : Keeps s t.takeDue := by
  refine h.trans ?_
  unfold State.takeDue
  simp (maxDischargeDepth := 80)

/-! ## The Office Port and the starts of the part (R183 to R191) -/

@[simp] theorem State.restartLine_keeps {s t : State} (h : Keeps s t) : Keeps s t.restartLine := by
  refine h.trans ?_
  unfold State.restartLine
  have hf : Keeps t (stationAddresses.foldl (fun u a => u.setStation a (restartedStation (u.station a))) t) :=
    Keeps.foldl _ (Keeps.refl _) (fun u a => State.setStation_keeps _ _ (Keeps.refl _) (.inr (Nat.zero_le 8)))
  exact State.lineUpdate_keeps _ hf (by dsimp only)

@[simp] theorem State.restartArticles_keeps {s t : State} (h : Keeps s t) : Keeps s t.restartArticles := by
  refine h.trans ?_
  unfold State.restartArticles
  simp (maxDischargeDepth := 80)

@[simp] theorem State.powerOn_keeps {s t : State} (h : Keeps s t) : Keeps s t.powerOn := by
  refine h.trans ⟨fun _ => ⟨rfl, rfl, Nat.zero_le 32⟩, fun _ => ?_, fun _ => ?_, fun _ => ?_, fun _ => ?_,
    fun _ => ⟨List.Pairwise.nil, fun t ht => (List.not_mem_nil ht).elim⟩⟩
  · show Settings.sound Settings.powerOn
    unfold Settings.sound
    decide
  · exact ⟨Bank.clear_sound 1, Bank.clear_sound 0, fun _ => rfl⟩
  · exact ⟨fun _ => Nat.zero_le 8, Nat.zero_le 64, Nat.zero_le 64, Nat.zero_le 4⟩
  · exact ⟨Tbl.wf_nil _, Tbl.wf_nil _, Tbl.wf_nil _, Tbl.wf_nil _, Tbl.wf_nil _, Tbl.wf_nil _⟩

@[simp] theorem State.restartChannels_keeps {s t : State} (h : Keeps s t) : Keeps s t.restartChannels := by
  refine h.trans ?_
  unfold State.restartChannels
  simp (maxDischargeDepth := 80)

@[simp] theorem State.restartService_keeps {s t : State} (h : Keeps s t) : Keeps s t.restartService := by
  refine h.trans ?_
  unfold State.restartService
  have hr (now idle expiry : Nat) (x : Ticket) : (restartedTicket now idle expiry x).number = x.number := by
    unfold restartedTicket
    split <;> rfl
  simp (maxDischargeDepth := 60) [Function.comp_def, hr]

@[simp] theorem State.warmRestart_keeps {s t : State} (c : StartCause) (h : Keeps s t) : Keeps s (t.warmRestart c) := by
  refine h.trans ?_
  unfold State.warmRestart
  simp (maxDischargeDepth := 80)

@[simp] theorem State.resetFall_keeps {s t : State} (h : Keeps s t) : Keeps s t.resetFall := by
  refine h.trans ?_
  unfold State.resetFall
  dsimp only
  have hl : Keeps t { t with op := { t.op with resetLow := true } } := State.portUpdate_keeps _ (Keeps.refl _) id id
  (repeat' split) <;> simp [hl]

@[simp] theorem State.resetRise_keeps {s t : State} (n : Nat) (h : Keeps s t) : Keeps s (t.resetRise n) := by
  refine h.trans ?_
  unfold State.resetRise
  dsimp only
  have hl : Keeps t { t with op := { t.op with resetLow := false } } := State.portUpdate_keeps _ (Keeps.refl _) id id
  (repeat' split) <;> simp [hl]

@[simp] theorem State.storeSettings_keeps {s t : State} (c : Settings) (h : Keeps s t) (hc : c.sound) :
    Keeps s (t.storeSettings c) := by
  refine h.trans ?_
  unfold State.storeSettings
  dsimp only
  have hp : Keeps t { t with op := OfficePort.evalIrq { t.op with settings := c } } :=
    State.portUpdate_keeps _ (Keeps.refl _) (fun hx => ⟨hx.1, rfl, hx.2.2⟩) (fun _ => hc)
  split
  · exact hp
  · exact Keeps.foldl _ hp (fun u a => State.evaluate_keeps a (Keeps.refl u))

@[simp] theorem State.ctrSet_keeps {s t : State} (body : List Byte) (h : Keeps s t) : Keeps s (t.ctrSet body).1 := by
  refine h.trans ?_
  unfold State.ctrSet
  dsimp only
  split
  · exact Keeps.refl _
  · split
    · rename_i hi
      exact State.storeSettings_keeps _ (Keeps.refl _) (clampSettings_sound _ hi)
    · exact Keeps.refl _

@[simp] theorem State.ctrRead_keeps {s t : State} (body : List Byte) (h : Keeps s t) : Keeps s (t.ctrRead body).1 := by
  unfold State.ctrRead
  (repeat' split) <;> exact h

@[simp] theorem State.ctrTime_keeps {s t : State} (body : List Byte) (h : Keeps s t) : Keeps s (t.ctrTime body).1 := by
  refine h.trans ?_
  unfold State.ctrTime
  split
  · exact Keeps.refl _
  · exact State.portUpdate_keeps _ (Keeps.refl _) id id

@[simp] theorem State.ctrRestart_keeps {s t : State} (body : List Byte) (h : Keeps s t) : Keeps s (t.ctrRestart body).1 := by
  refine h.trans ?_
  unfold State.ctrRestart
  (repeat' split) <;> simp (maxDischargeDepth := 80)

@[simp] theorem State.ctrStatus_keeps {s t : State} (body : List Byte) (h : Keeps s t) : Keeps s (t.ctrStatus body).1 := by
  unfold State.ctrStatus
  (repeat' split) <;> exact h

@[simp] theorem State.ntcRead_keeps {s t : State} (body : List Byte) (h : Keeps s t) : Keeps s (t.ntcRead body).1 := by
  refine h.trans ?_
  unfold State.ntcRead
  split
  · exact Keeps.refl _
  · refine State.portUpdate_keeps _ (Keeps.refl _) (fun hx => ⟨hx.1, rfl, ?_⟩) id
    show (t.op.fifo.drop 8).length ≤ 32
    have := hx.2.2
    simp
    omega

@[simp] theorem State.ntcAck_keeps {s t : State} (body : List Byte) (h : Keeps s t) : Keeps s (t.ntcAck body).1 := by
  refine h.trans ?_
  unfold State.ntcAck
  split
  · exact Keeps.refl _
  · exact State.portUpdate_keeps _ (Keeps.refl _) (fun hx => ⟨hx.1, rfl, hx.2.2⟩) id

@[simp] theorem State.responseRead_keeps {s t : State} (n : Nat) (h : Keeps s t) : Keeps s (t.responseRead n) := by
  refine h.trans ?_
  unfold State.responseRead
  dsimp only
  (repeat' split) <;> simp (maxDischargeDepth := 80)

@[simp] theorem State.badTransaction_keeps {s t : State} (code : Byte) (rest : List Byte) (h : Keeps s t) : Keeps s (t.badTransaction code rest) := by
  refine h.trans ?_
  unfold State.badTransaction
  (repeat' split) <;> simp (maxDischargeDepth := 80)

@[simp] theorem State.transact_keeps {s t : State} {f : State → State × Answer} (code : Byte) (body : List Byte)
    (h : Keeps s t) (hf : ∀ u, Keeps u (f u).1) : Keeps s (t.transact code body f) := by
  unfold State.transact
  dsimp only
  (repeat' split)
  · exact h
  · exact State.sent_keeps _ (State.answer_keeps _ _ h)
  · exact State.sent_keeps _ (State.answer_keeps _ _ (h.trans (hf _)))


@[simp] theorem State.hostCommand_keeps {s t : State} (code : Nat) (body : List Byte) (h : Keeps s t) : Keeps s (t.hostCommand code body).1 := by
  refine h.trans ?_
  unfold State.hostCommand
  (repeat' split) <;> simp (maxDischargeDepth := 80)

@[simp] theorem State.transaction_keeps {s t : State} (code : Byte) (rest : List Byte) (h : Keeps s t) : Keeps s (t.transaction code rest) := by
  refine h.trans ?_
  unfold State.transaction
  (repeat' split) <;> simp (maxDischargeDepth := 80)

/-! ## Commands -/

/-- Every command keeps every invariant. -/
theorem exec_keeps {i : Instr} {s t : State} (h : exec i s = .next t) : Keeps s t := by
  cases i <;> simp only [exec,
    execPowerOn, execResetFall, execResetRise, execResponseRead, execBadFrame, execShortTransaction,
    execUnknownCommand, execArtCreate, execArtChange, execArtRetire, execArtRead, execStnConfig, execStnMode,
    execStnRead, execClkEnrol, execClkRemove, execClkRead, execTktRead, execTicketDirectory, execTktCancel,
    execTktRelease, execQueRead, execQueReset, execWchSet, execWchRead, execTotClose, execTotRead, execTotClear,
    execCtrSet, execCtrRead, execCtrTime, execCtrRestart, execCtrStatus, execNtcRead, execNtcAck, execClockTick,
    execDownstreamSent, execReplyFrame, execReplyWindowExpiry, execReplyIncomplete, execSamples, execSelect,
    execClear, execTare, execPtare, execClrtare, execZero, execQty, execLogin, execLogout, execNew, execSwitch,
    execAdd, execLabel, execVoidItem, execVoidTicket, execClose, execRelease, execNext, execRecall, execSkip,
    execOverride, execUnknownAction, execPurged, execPrinted, execTake, execSettleTimeout, execIdleDeadlineExpiry,
    execExpiryDeadlineExpiry, execPrintDeadlineExpiry, execResidencyExpiry, execLineCharactersOutsideVisit,
    execEmptyTransaction,
    Host.Outcome.next.injEq] at h <;> subst h
  all_goals ((repeat' split) <;> simp (maxDischargeDepth := 60))

/-- Every step keeps every invariant. -/
theorem step_keeps {s t : State} (h : step s = .next t) : Keeps s t := by
  unfold step at h
  split at h
  · cases h
    exact State.setNow_keeps _ (Keeps.refl s)
  · have k := exec_keeps h
    exact ⟨k.port, k.settings, k.totals, k.capacity, k.tables, k.numbers⟩

end Sys2Proof.Machine
end

