-- ==== Sys2Proof/Laws/Messages.lean ====
section
/-! SUPPORT. What the operations that messages share leave: a message taken, a pin released, the end of an event that
touched articles, active tickets and logins (R14, R44, R78, R93, R97, R100, R113, R120). -/

namespace Sys2Proof.Machine

/-! ## A message taken -/

theorem State.took_of_offers {s t : State} {a k : Nat} (h : Offers a k (s.markTaken a) t) : s.took t a := by
  obtain ⟨q, b, o, hq⟩ := h.keeps
  refine ⟨(s.markTaken_only a).trans h.only, q, b, o, ?_⟩
  rw [hq, State.markTaken_station, if_pos rfl]

theorem Offers.then_changes {a k : Nat} {s t u : State} (h : Offers a k s t) {l : List Block} (g : Changes l t u)
    (hl : Block.lc ∉ l) : Offers a k s u := h.then_lc (g.frame .lc hl)

theorem State.answered_of_changes {t u : State} {a x : Nat} {c : ReplyCode} {d : List Byte} (h : t.answered a x c d)
    {l : List Block} (g : Changes l t u) (hl : Block.lc ∉ l) : u.answered a x c d :=
  State.answered_of_lc (g.frame .lc hl) h

/-- Two steps that each change at most the blocks of l. -/
theorem Changes.both {l : List Block} {s t u : State} (h : Changes l s t) (g : Changes l t u) : Changes l s u := by
  refine ⟨fun b hb => ?_⟩
  have h1 := h.frame b hb
  have h2 := g.frame b hb
  cases b <;> exact h2.trans h1

/-- A shorter list of blocks changes less. -/
theorem Changes.grow {l m : List Block} {s t : State} (h : Changes l s t) (hm : ∀ b ∈ l, b ∈ m) : Changes m s t :=
  ⟨fun b hb => h.frame b (fun hl => hb (hm b hl))⟩

theorem State.markTaken_channel (s : State) (a b : Nat) : (s.markTaken a).channel b = s.channel b := rfl

theorem State.markTaken_state (s : State) (a b : Nat) : ((s.markTaken a).station b).state = (s.station b).state := by
  rw [State.markTaken_station]
  split
  · rename_i h; rw [h]
  · rfl

theorem State.verdictOf_congr {s t : State} {a : Nat} (ho : t.op = s.op) (hs : (t.station a).state = (s.station a).state) :
    t.verdictOf a = s.verdictOf a := by
  funext ch
  unfold State.verdictOf
  rw [ho, hs]

theorem State.markTaken_verdictOf (s : State) (a b : Nat) : (s.markTaken a).verdictOf b = s.verdictOf b :=
  State.verdictOf_congr rfl (s.markTaken_state a b)

theorem judged_ctx (ch : Channel) (v : Verdict) : (judged ch v).ctx = ch.ctx := by
  unfold judged
  split <;> rfl

theorem judged_tare (ch : Channel) (v : Verdict) : (judged ch v).tare = ch.tare := by
  unfold judged
  split <;> rfl

theorem judged_config (ch : Channel) (v : Verdict) : (judged ch v).config = ch.config := by
  unfold judged
  split <;> rfl

/-! ## The pin -/

theorem State.unpin_channel (s : State) (a b : Nat) : (s.unpin a).channel b =
    if b = a ∧ (s.channel a).ctx.pin.isSome = true then unpinned (s.channel a) else s.channel b := by
  unfold State.unpin State.pinned
  cases hp : (s.channel a).ctx.pin with
  | none => simp
  | some p =>
    have h : (State.leavePinSet (s.setChannel a (unpinned (s.channel a))) a p.number).channel b
        = (s.setChannel a (unpinned (s.channel a))).channel b := rfl
    simp [h]

theorem State.unpin_pin (s : State) (a : Nat) : ((s.unpin a).channel a).ctx.pin = none := by
  rw [State.unpin_channel]
  split
  · rfl
  · rename_i h
    simpa using h

theorem State.unpin_lc (s : State) (a : Nat) : (s.unpin a).lc = s.lc := by
  have h : Changes [.we, .art] s (s.unpin a) := by simp
  exact h.same .lc rfl

theorem State.unpin_op (s : State) (a : Nat) : (s.unpin a).op = s.op := by
  have h : Changes [.we, .art] s (s.unpin a) := by simp
  exact h.same .op rfl

/-- The articles but for the pin set of the pinned one. -/
theorem State.unpin_article (s : State) (a n : Nat) : (s.unpin a).article n =
    if s.pinned a = some n then { s.article n with pins := setErase a (s.article n).pins } else s.article n := by
  unfold State.unpin
  cases hp : s.pinned a with
  | none => simp
  | some m =>
    unfold State.leavePinSet
    simp only [State.article_setArticle, Option.some.injEq]
    have hr : ∀ k, (s.setChannel a (unpinned (s.channel a))).article k = s.article k := fun _ => rfl
    by_cases h : n = m
    · subst h; simp [hr]
    · simp [h, Ne.symm h, hr]

theorem State.releasePin_offers (s : State) (a : Nat) : Offers a 1 s (s.releasePin a) := by
  unfold State.releasePin
  split
  · exact ((Offers.of_lc (s.unpin_lc a)).trans (State.evaluate_offers _ a)).mono (by omega)
  · exact (Offers.refl a s).mono (by omega)

theorem State.releasePin_channel (s : State) (a b : Nat) : (s.releasePin a).channel b =
    if b = a ∧ (s.channel a).ctx.pin.isSome = true then
      judged (unpinned (s.channel a)) (s.verdictOf a (unpinned (s.channel a)))
    else s.channel b := by
  unfold State.releasePin
  have hv : (s.unpin a).verdictOf a = s.verdictOf a :=
    State.verdictOf_congr (s.unpin_op a) (by rw [State.station_of_lc (s.unpin_lc a)])
  cases hp : s.pinned a with
  | none =>
    have h : (s.channel a).ctx.pin = none := by simpa [State.pinned] using hp
    simp [h]
  | some n =>
    have h : (s.channel a).ctx.pin.isSome = true := by
      unfold State.pinned at hp
      cases hx : (s.channel a).ctx.pin
      · rw [hx] at hp; cases hp
      · rfl
    dsimp only
    by_cases hb : b = a
    · subst hb
      rw [State.evaluate_channel, hv, State.unpin_channel, if_pos ⟨rfl, h⟩, if_pos ⟨rfl, h⟩]
    · rw [State.evaluate_channel_ne _ hb, State.unpin_channel, if_neg (fun x => hb x.1), if_neg (fun x => hb x.1)]

theorem State.releasePin_pin (s : State) (a : Nat) : ((s.releasePin a).channel a).ctx.pin = none := by
  rw [State.releasePin_channel]
  split
  · rw [judged_ctx]; rfl
  · rename_i h
    simpa using h

theorem State.evaluate_article (s : State) (a n : Nat) : (s.evaluate a).article n = s.article n := by
  have h : Changes [.we, .lc] s (s.evaluate a) := by simp
  exact State.article_of_art (h.same .art rfl) n

theorem State.releasePin_article (s : State) (a n : Nat) : (s.releasePin a).article n =
    if s.pinned a = some n then { s.article n with pins := setErase a (s.article n).pins } else s.article n := by
  unfold State.releasePin
  cases hp : s.pinned a with
  | none => simp
  | some m =>
    dsimp only
    rw [State.evaluate_article, State.unpin_article, hp]

/-! ## The end of an event that touched articles (R78, R100) -/

theorem settledState_idem (x : ArticleState) : settledState (settledState x) = settledState x := by
  cases x <;> rfl

theorem State.settleCheck_article (s : State) (k n : Nat) : (s.settleCheck k).article n = s.article n
    ∨ (s.settleCheck k).article n = { s.article n with state := settledState (s.article n).state } := by
  unfold State.settleCheck
  split
  · split
    · unfold State.closeChange State.noteSettled
      dsimp only
      rw [State.article_setArticle]
      split
      · rename_i h; subst h; exact .inr rfl
      · exact .inl rfl
    · exact .inl rfl
  · exact .inl rfl

theorem State.settleChecks_article (l : List Nat) (s : State) (n : Nat) :
    (l.foldl State.settleCheck s).article n = s.article n
    ∨ (l.foldl State.settleCheck s).article n = { s.article n with state := settledState (s.article n).state } := by
  induction l generalizing s with
  | nil => exact .inl rfl
  | cons k rest ih =>
    rw [List.foldl_cons]
    rcases ih (s.settleCheck k) with h | h <;> rcases State.settleCheck_article s k n with g | g <;> rw [h, g]
    · exact .inl rfl
    · exact .inr rfl
    · exact .inr rfl
    · right
      simp only [settledState_idem]

theorem State.emptyCheck_article (s : State) (k n : Nat) : (s.emptyCheck k).article n = s.article n
    ∨ ((s.emptyCheck k).article n = Article.powerOn ∧ (s.article n).state = .retiring ∧ (s.article n).holders = []
        ∧ (s.article n).pins = [] ∧ (s.article n).refs = 0) := by
  unfold State.emptyCheck
  dsimp only
  split
  · rename_i h
    rw [State.article_setArticle]
    split
    · rename_i hn; subst hn; exact .inr ⟨rfl, h.1, h.2.1, h.2.2.1, h.2.2.2.1⟩
    · exact .inl rfl
  · exact .inl rfl

theorem State.emptyChecks_article (l : List Nat) (s : State) (n : Nat) :
    (l.foldl State.emptyCheck s).article n = s.article n
    ∨ ((l.foldl State.emptyCheck s).article n = Article.powerOn ∧ (s.article n).state = .retiring
        ∧ (s.article n).holders = [] ∧ (s.article n).pins = [] ∧ (s.article n).refs = 0) := by
  induction l generalizing s with
  | nil => exact .inl rfl
  | cons k rest ih =>
    rw [List.foldl_cons]
    rcases State.emptyCheck_article s k n with g | g
    · rcases ih (s.emptyCheck k) with h | h
      · rw [h, g]; exact .inl rfl
      · rw [g] at h; exact .inr h
    · rcases ih (s.emptyCheck k) with h | h
      · right; rw [h]; exact g
      · exact .inr ⟨h.1, g.2⟩

/-- Of an article, the end of an event changes only the state, unless it empties the slot. -/
theorem State.finish_article (s : State) (l : List Nat) (n : Nat) :
    (∃ x, (s.finish l).article n = { s.article n with state := x }
        ∧ (x = (s.article n).state ∨ x = settledState (s.article n).state))
    ∨ ((s.finish l).article n = Article.powerOn ∧ (s.article n).state = .retiring ∧ (s.article n).holders = []
        ∧ (s.article n).pins = [] ∧ (s.article n).refs = 0) := by
  unfold State.finish
  dsimp only
  rcases State.settleChecks_article (rising l) s n with h | h <;>
    rcases State.emptyChecks_article (rising l) ((rising l).foldl State.settleCheck s) n with g | g <;> rw [h] at g
  · exact .inl ⟨_, g, .inl rfl⟩
  · exact .inr g
  · exact .inl ⟨_, g, .inr rfl⟩
  · refine .inr ⟨g.1, ?_, g.2.2⟩
    have := g.2.1
    revert this
    cases (s.article n).state <;> simp [settledState]

theorem State.finish_refs (s : State) (l : List Nat) (n : Nat) :
    ((s.finish l).article n).refs = (s.article n).refs := by
  rcases s.finish_article l n with ⟨x, h, _⟩ | h
  · rw [h]
  · rw [h.1, h.2.2.2.2]; rfl

theorem State.finish_pins (s : State) (l : List Nat) (n : Nat) :
    ((s.finish l).article n).pins = (s.article n).pins := by
  rcases s.finish_article l n with ⟨x, h, _⟩ | h
  · rw [h]
  · rw [h.1, h.2.2.2.1]; rfl

theorem State.finish_holders (s : State) (l : List Nat) (n : Nat) :
    ((s.finish l).article n).holders = (s.article n).holders := by
  rcases s.finish_article l n with ⟨x, h, _⟩ | h
  · rw [h]
  · rw [h.1, h.2.2.1]; rfl

theorem State.finish_changes' (s : State) (l : List Nat) : Changes [.cd, .art, .op] s (s.finish l) := by simp

theorem State.finish_lc (s : State) (l : List Nat) : (s.finish l).lc = s.lc := (s.finish_changes' l).same .lc rfl

theorem State.finish_we (s : State) (l : List Nat) : (s.finish l).we = s.we := (s.finish_changes' l).same .we rfl

theorem State.finish_sc (s : State) (l : List Nat) : (s.finish l).sc = s.sc := (s.finish_changes' l).same .sc rfl

/-- The copy maps are no part of the end of an event. -/
theorem State.settleCheck_maps (s : State) (k : Nat) : (s.settleCheck k).cd.maps = s.cd.maps := by
  unfold State.settleCheck
  split
  · split <;> rfl
  · rfl

theorem State.finish_copyMap (s : State) (l : List Nat) (a : Nat) : (s.finish l).copyMap a = s.copyMap a := by
  have h1 : ∀ (l : List Nat) (t : State), (l.foldl State.settleCheck t).cd.maps = t.cd.maps := by
    intro l
    induction l with
    | nil => exact fun t => rfl
    | cons k rest ih => exact fun t => (ih _).trans (t.settleCheck_maps k)
  have h2 : ∀ (l : List Nat) (t : State), (l.foldl State.emptyCheck t).cd.maps = t.cd.maps := by
    intro l
    induction l with
    | nil => exact fun t => rfl
    | cons k rest ih =>
      refine fun t => (ih _).trans ?_
      have h : Changes [.art] t (t.emptyCheck k) := by simp
      rw [h.same .cd rfl]
  unfold State.copyMap State.finish
  dsimp only
  rw [h2, h1]

/-! ## Active tickets (R120) -/

theorem State.setActive_clerk (s : State) (c d : Nat) (x : Option Nat) : (s.setActive c x).clerk d =
    if d = c then { s.clerk c with active := x } else s.clerk d := by
  unfold State.setActive
  dsimp only
  have h : ∀ (t : State) (a : Nat) (y z : Option Nat), (t.mirror a y z).clerk d = t.clerk d := fun _ _ _ _ => rfl
  split
  · rw [h, State.clerk_setClerk]
  · rw [State.clerk_setClerk]

theorem State.setActive_lc (s : State) (c : Nat) (x : Option Nat) : (s.setActive c x).lc = s.lc := by
  have h : Changes [.sc, .we] s (s.setActive c x) := by simp
  exact h.same .lc rfl

theorem State.setActive_tickets (s : State) (c : Nat) (x : Option Nat) :
    (s.setActive c x).sc.tickets = s.sc.tickets ∧ (s.setActive c x).sc.lastTicket = s.sc.lastTicket
      ∧ (s.setActive c x).sc.prints = s.sc.prints := by
  unfold State.setActive
  dsimp only
  split <;> exact ⟨rfl, rfl, rfl⟩

theorem State.setActive_channel (s : State) (c b : Nat) (x : Option Nat) : (s.setActive c x).channel b =
    if (s.clerk c).scale = some b then
      { s.channel b with ctx := { (s.channel b).ctx with clerk := some c, activeTicket := x } }
    else s.channel b := by
  unfold State.setActive
  dsimp only
  split
  · rename_i a h
    unfold State.mirror
    rw [State.channel_setChannel]
    by_cases hb : b = a
    · subst hb; rw [if_pos rfl, if_pos h]; rfl
    · rw [if_neg hb, if_neg (by rw [h]; simpa using Ne.symm hb)]; rfl
  · rename_i h
    rw [if_neg (by rw [h]; simp)]; rfl

theorem State.deactivate_clerk (s : State) (t : Ticket) :
    ((s.clerk t.clerk).active = some t.number → ((s.deactivate t).clerk t.clerk).active = none)
    ∧ ∀ c, c ≠ t.clerk → (s.deactivate t).clerk c = s.clerk c := by
  unfold State.deactivate
  constructor
  · intro h
    rw [if_pos h, State.setActive_clerk, if_pos rfl]
  · intro c hc
    split
    · rw [State.setActive_clerk, if_neg hc]
    · rfl

theorem State.deactivate_tickets (s : State) (t : Ticket) : (s.deactivate t).sc.tickets = s.sc.tickets := by
  unfold State.deactivate
  split
  · exact (s.setActive_tickets _ _).1
  · rfl

theorem State.deactivate_lc (s : State) (t : Ticket) : (s.deactivate t).lc = s.lc := by
  have h : Changes [.sc, .we] s (s.deactivate t) := by simp
  exact h.same .lc rfl

/-! ## Removal (R125) -/

theorem State.dropRefs_refs (l : List Item) (s : State) (n : Nat) : ((l.foldl State.dropRef s).article n).refs
    = (s.article n).refs - (l.filter (fun i => i.article == n)).length := by
  induction l generalizing s with
  | nil => rfl
  | cons i rest ih =>
    rw [List.foldl_cons, ih]
    unfold State.dropRef
    dsimp only
    rw [State.article_setArticle]
    by_cases h : n = i.article
    · subst h
      simp only [if_true, beq_self_eq_true, List.filter_cons_of_pos, List.length_cons]
      omega
    · have : (i.article == n) = false := by simpa using Ne.symm h
      simp [h, this]

theorem State.removeTicket_removed (s : State) (k : Ticket) : s.removed (s.removeTicket k) k := by
  have hsc : (s.removeTicket k).sc
      = ((s.setTickets (s.sc.tickets.filter (fun x => x.number != k.number))).deactivate k).sc := by
    unfold State.removeTicket
    dsimp only
    have h1 : ∀ (l : List Nat) (t : State), (l.foldl State.emptyCheck t).sc = t.sc := by
      intro l
      induction l with
      | nil => exact fun t => rfl
      | cons a rest ih =>
        refine fun t => (ih _).trans ?_
        have h : Changes [.art] t (t.emptyCheck a) := by simp
        exact h.same .sc rfl
    have h2 : ∀ (l : List Item) (t : State), (l.foldl State.dropRef t).sc = t.sc := by
      intro l
      induction l with
      | nil => exact fun t => rfl
      | cons a rest ih => exact fun t => (ih _).trans rfl
    rw [h1, h2]
  have hd := State.deactivate_clerk (s.setTickets (s.sc.tickets.filter (fun x => x.number != k.number))) k
  refine ⟨by rw [hsc, State.deactivate_tickets]; rfl, fun h => ?_, fun c hc => ?_, fun n => ?_⟩
  · rw [State.clerk_of_sc hsc]; exact hd.1 h
  · rw [State.clerk_of_sc hsc]; exact hd.2 c hc
  · unfold State.removeTicket
    dsimp only
    have ha : ((s.setTickets (s.sc.tickets.filter (fun x => x.number != k.number))).deactivate k).article n
        = s.article n := by
      have h : Changes [.sc, .we] (s.setTickets (s.sc.tickets.filter (fun x => x.number != k.number)))
        ((s.setTickets (s.sc.tickets.filter (fun x => x.number != k.number))).deactivate k) := by simp
      exact State.article_of_art (h.same .art rfl) n
    rcases State.emptyChecks_article (rising (k.items.map (·.article)))
      (k.items.foldl State.dropRef
        ((s.setTickets (s.sc.tickets.filter (fun x => x.number != k.number))).deactivate k)) n with h | h
    · rw [h, State.dropRefs_refs, ha]
    · rw [h.1, ← ha, ← State.dropRefs_refs, h.2.2.2.2]; rfl

theorem State.removeTicket_changes' (s : State) (k : Ticket) : Changes [.sc, .we, .art] s (s.removeTicket k) := by simp

end Sys2Proof.Machine
end

