-- ==== Sys2Proof/Laws/PerInstr.lean ====
section
/-! SUPPORT. Facts about every command as syntax. HostCode: a well-formed host command carries a code of the table of R184
and a body whose frame has the stated length (R183). -/

namespace Sys2Proof.Laws.HostCode

/-- A well-formed host command's code is in the table of R184, and the frame of its body is sound (R183). -/
def Statement (i : Instr) : Prop :=
  i.wf = true → ∀ code body, i.hostFrame = some (code, body) →
    code ∈ hostCodes ∧ frameSound (Machine.chars 2 body.length ++ body) = true

theorem of_none {i : Instr} (h : i.hostFrame = none) : Statement i := by
  intro _ code body hf
  rw [h] at hf
  cases hf

/-- A body of at most 255 characters stands in a sound frame. -/
theorem frameSound_of_body {body : List Byte} (h : body.length ≤ 255) :
    frameSound (Machine.chars 2 body.length ++ body) = true := by
  have h1 : body.length / 256 = 0 := by omega
  have h2 : body.length % 256 = body.length := by omega
  simp [frameSound, statedLength, Machine.chars, h, h1, h2]

theorem of_frame {i : Instr} {c : Nat} {b : List Byte} (h : i.hostFrame = some (c, b)) (hc : c ∈ hostCodes)
    (hb : i.wf = true → b.length ≤ 255) : Statement i := by
  intro hw code body hf
  rw [h] at hf
  cases hf
  exact ⟨hc, frameSound_of_body (hb hw)⟩

theorem powerOn : Statement (.powerOn) := of_none rfl

theorem resetFall : Statement (.resetFall) := of_none rfl

theorem resetRise (lowMicros : Nat) : Statement (.resetRise lowMicros) := of_none rfl

theorem responseRead (clocked : Nat) : Statement (.responseRead clocked) := of_none rfl

theorem badFrame (code : Byte) (rest : List Byte) : Statement (.badFrame code rest) := of_none rfl

theorem shortTransaction (chars : List Byte) : Statement (.shortTransaction chars) := of_none rfl

theorem unknownCommand (code : Byte) (body : List Byte) : Statement (.unknownCommand code body) := of_none rfl

theorem artCreate (body : List Byte) : Statement (.artCreate body) :=
  of_frame rfl (by decide) (fun h => of_decide_eq_true h)

theorem artChange (body : List Byte) : Statement (.artChange body) :=
  of_frame rfl (by decide) (fun h => of_decide_eq_true h)

theorem artRetire (body : List Byte) : Statement (.artRetire body) :=
  of_frame rfl (by decide) (fun h => of_decide_eq_true h)

theorem artRead (body : List Byte) : Statement (.artRead body) :=
  of_frame rfl (by decide) (fun h => of_decide_eq_true h)

theorem stnConfig (body : List Byte) : Statement (.stnConfig body) :=
  of_frame rfl (by decide) (fun h => of_decide_eq_true h)

theorem stnMode (body : List Byte) : Statement (.stnMode body) :=
  of_frame rfl (by decide) (fun h => of_decide_eq_true h)

theorem stnRead (body : List Byte) : Statement (.stnRead body) :=
  of_frame rfl (by decide) (fun h => of_decide_eq_true h)

theorem clkEnrol (body : List Byte) : Statement (.clkEnrol body) :=
  of_frame rfl (by decide) (fun h => of_decide_eq_true h)

theorem clkRemove (body : List Byte) : Statement (.clkRemove body) :=
  of_frame rfl (by decide) (fun h => of_decide_eq_true h)

theorem clkRead (body : List Byte) : Statement (.clkRead body) :=
  of_frame rfl (by decide) (fun h => of_decide_eq_true h)

theorem tktRead (body : List Byte) : Statement (.tktRead body) :=
  of_frame rfl (by decide) (fun h => of_decide_eq_true h)

theorem ticketDirectory : Statement (.ticketDirectory) := of_frame rfl (by decide) (fun _ => by decide)

theorem tktCancel (body : List Byte) : Statement (.tktCancel body) :=
  of_frame rfl (by decide) (fun h => of_decide_eq_true h)

theorem tktRelease (body : List Byte) : Statement (.tktRelease body) :=
  of_frame rfl (by decide) (fun h => of_decide_eq_true h)

theorem queRead (body : List Byte) : Statement (.queRead body) :=
  of_frame rfl (by decide) (fun h => of_decide_eq_true h)

theorem queReset (body : List Byte) : Statement (.queReset body) :=
  of_frame rfl (by decide) (fun h => of_decide_eq_true h)

theorem wchSet (body : List Byte) : Statement (.wchSet body) :=
  of_frame rfl (by decide) (fun h => of_decide_eq_true h)

theorem wchRead (body : List Byte) : Statement (.wchRead body) :=
  of_frame rfl (by decide) (fun h => of_decide_eq_true h)

theorem totClose (body : List Byte) : Statement (.totClose body) :=
  of_frame rfl (by decide) (fun h => of_decide_eq_true h)

theorem totRead (body : List Byte) : Statement (.totRead body) :=
  of_frame rfl (by decide) (fun h => of_decide_eq_true h)

theorem totClear (body : List Byte) : Statement (.totClear body) :=
  of_frame rfl (by decide) (fun h => of_decide_eq_true h)

theorem ctrSet (body : List Byte) : Statement (.ctrSet body) :=
  of_frame rfl (by decide) (fun h => of_decide_eq_true h)

theorem ctrRead (body : List Byte) : Statement (.ctrRead body) :=
  of_frame rfl (by decide) (fun h => of_decide_eq_true h)

theorem ctrTime (body : List Byte) : Statement (.ctrTime body) :=
  of_frame rfl (by decide) (fun h => of_decide_eq_true h)

theorem ctrRestart (body : List Byte) : Statement (.ctrRestart body) :=
  of_frame rfl (by decide) (fun h => of_decide_eq_true h)

theorem ctrStatus (body : List Byte) : Statement (.ctrStatus body) :=
  of_frame rfl (by decide) (fun h => of_decide_eq_true h)

theorem ntcRead (body : List Byte) : Statement (.ntcRead body) :=
  of_frame rfl (by decide) (fun h => of_decide_eq_true h)

theorem ntcAck (body : List Byte) : Statement (.ntcAck body) :=
  of_frame rfl (by decide) (fun h => of_decide_eq_true h)

theorem clockTick : Statement (.clockTick) := of_none rfl

theorem downstreamSent : Statement (.downstreamSent) := of_none rfl

theorem replyFrame (chars : List Byte) : Statement (.replyFrame chars) := of_none rfl

theorem replyWindowExpiry : Statement (.replyWindowExpiry) := of_none rfl

theorem replyIncomplete : Statement (.replyIncomplete) := of_none rfl

theorem samples (scale : Nat) (readings : List Reading) : Statement (.samples scale readings) := of_none rfl

theorem select (scale : Nat) (article : Nat) : Statement (.select scale article) := of_none rfl

theorem clear (scale : Nat) : Statement (.clear scale) := of_none rfl

theorem tare (scale : Nat) : Statement (.tare scale) := of_none rfl

theorem ptare (scale : Nat) (grams : Nat) : Statement (.ptare scale grams) := of_none rfl

theorem clrtare (scale : Nat) : Statement (.clrtare scale) := of_none rfl

theorem zero (scale : Nat) : Statement (.zero scale) := of_none rfl

theorem qty (scale : Nat) (quantity : Nat) : Statement (.qty scale quantity) := of_none rfl

theorem login (scale : Nat) (clerk : Nat) : Statement (.login scale clerk) := of_none rfl

theorem logout (scale : Nat) : Statement (.logout scale) := of_none rfl

theorem newTicket (scale : Nat) : Statement (.newTicket scale) := of_none rfl

theorem switch (scale : Nat) (ticket : Nat) : Statement (.switch scale ticket) := of_none rfl

theorem add (scale : Nat) (stamp : Nat) : Statement (.add scale stamp) := of_none rfl

theorem label (scale : Nat) (stamp : Nat) : Statement (.label scale stamp) := of_none rfl

theorem voidItem (scale : Nat) (position : Nat) : Statement (.voidItem scale position) := of_none rfl

theorem voidTicket (scale : Nat) : Statement (.voidTicket scale) := of_none rfl

theorem close (scale : Nat) : Statement (.close scale) := of_none rfl

theorem release (scale : Nat) (ticket : Nat) : Statement (.release scale ticket) := of_none rfl

theorem next (scale : Nat) : Statement (.next scale) := of_none rfl

theorem recallNumber (scale : Nat) : Statement (.recallNumber scale) := of_none rfl

theorem skip (scale : Nat) : Statement (.skip scale) := of_none rfl

theorem override (scale : Nat) (article : Nat) (unitPrice : Nat) : Statement (.override scale article unitPrice) :=
  of_none rfl

theorem unknownAction (scale : Nat) (code : Nat) : Statement (.unknownAction scale code) := of_none rfl

theorem purged (scale : Nat) (article : Option Nat) : Statement (.purged scale article) := of_none rfl

theorem printed (scale : Nat) (tag : Nat) (ok : Bool) : Statement (.printed scale tag ok) := of_none rfl

theorem take : Statement (.take) := of_none rfl

theorem settleTimeout (article : Nat) : Statement (.settleTimeout article) := of_none rfl

theorem idleDeadlineExpiry (ticket : Nat) : Statement (.idleDeadlineExpiry ticket) := of_none rfl

theorem expiryDeadlineExpiry (ticket : Nat) : Statement (.expiryDeadlineExpiry ticket) := of_none rfl

theorem printDeadlineExpiry (ticket : Nat) : Statement (.printDeadlineExpiry ticket) := of_none rfl

theorem residencyExpiry : Statement (.residencyExpiry) := of_none rfl

theorem lineCharactersOutsideVisit (chars : List Byte) : Statement (.lineCharactersOutsideVisit chars) := of_none rfl

theorem emptyTransaction : Statement (.emptyTransaction) := of_none rfl

end Sys2Proof.Laws.HostCode
end

