-- ==== Sys2Proof/Laws/Restart.lean ====
section
/-! SUPPORT. The warm restart, block by block: what each fold over stations, channels, articles, clerks and print records
leaves of each record, and that the slot that begins after the restart is a probe or none (R23, R47, R85, R106, R133,
R147). -/

namespace Sys2Proof.Machine

/-! ## Folds over records -/

theorem State.foldl_station (f : Station → Station) (l : List Nat) (hn : l.Nodup) (s : State) (b : Nat) :
    (l.foldl (fun u a => u.setStation a (f (u.station a))) s).station b
      = if b ∈ l then f (s.station b) else s.station b := by
  induction l generalizing s with
  | nil => simp
  | cons a rest ih =>
    obtain ⟨h1, h2⟩ := List.nodup_cons.mp hn
    rw [List.foldl_cons, ih h2]
    by_cases hb : b = a
    · subst hb
      simp [h1]
    · simp [hb]

theorem State.foldl_channel (f : Channel → Channel) (l : List Nat) (hn : l.Nodup) (s : State) (b : Nat) :
    (l.foldl (fun u a => u.setChannel a (f (u.channel a))) s).channel b
      = if b ∈ l then f (s.channel b) else s.channel b := by
  induction l generalizing s with
  | nil => simp
  | cons a rest ih =>
    obtain ⟨h1, h2⟩ := List.nodup_cons.mp hn
    rw [List.foldl_cons, ih h2]
    by_cases hb : b = a
    · subst hb
      simp [h1]
    · simp [hb]

theorem State.foldl_clerk (f : Clerk → Clerk) (l : List Nat) (hn : l.Nodup) (s : State) (b : Nat) :
    (l.foldl (fun u a => u.setClerk a (f (u.clerk a))) s).clerk b = if b ∈ l then f (s.clerk b) else s.clerk b := by
  induction l generalizing s with
  | nil => simp
  | cons a rest ih =>
    obtain ⟨h1, h2⟩ := List.nodup_cons.mp hn
    rw [List.foldl_cons, ih h2]
    by_cases hb : b = a
    · subst hb
      simp [h1]
    · simp [hb]

theorem State.foldl_printRecord (f : PrintRecord → PrintRecord) (l : List Nat) (hn : l.Nodup) (s : State) (b : Nat) :
    (l.foldl (fun u a => u.setPrintRecord a (f (u.printRecord a))) s).printRecord b
      = if b ∈ l then f (s.printRecord b) else s.printRecord b := by
  induction l generalizing s with
  | nil => simp
  | cons a rest ih =>
    obtain ⟨h1, h2⟩ := List.nodup_cons.mp hn
    rw [List.foldl_cons, ih h2]
    by_cases hb : b = a
    · subst hb
      simp [h1]
    · simp [hb]

/-- A fold that leaves the clerks, the tickets and the last number alone. -/
theorem State.foldl_prints_rest (f : PrintRecord → PrintRecord) (l : List Nat) (s : State) :
    let t := l.foldl (fun u a => u.setPrintRecord a (f (u.printRecord a))) s
    t.sc.clerks = s.sc.clerks ∧ t.sc.tickets = s.sc.tickets ∧ t.sc.lastTicket = s.sc.lastTicket := by
  induction l generalizing s with
  | nil => exact ⟨rfl, rfl, rfl⟩
  | cons a rest ih => exact ih (s.setPrintRecord a (f (s.printRecord a)))

theorem State.foldl_clerks_rest (f : Clerk → Clerk) (l : List Nat) (s : State) :
    let t := l.foldl (fun u a => u.setClerk a (f (u.clerk a))) s
    t.sc.prints = s.sc.prints ∧ t.sc.tickets = s.sc.tickets ∧ t.sc.lastTicket = s.sc.lastTicket := by
  induction l generalizing s with
  | nil => exact ⟨rfl, rfl, rfl⟩
  | cons a rest ih => exact ih (s.setClerk a (f (s.clerk a)))

theorem mem_stationAddresses (a : Nat) : a ∈ stationAddresses ↔ 1 ≤ a ∧ a ≤ 18 := by
  simp only [stationAddresses, List.mem_map, List.mem_range]
  exact ⟨fun ⟨x, h1, h2⟩ => by omega, fun h => ⟨a - 1, by omega, by omega⟩⟩

theorem mem_scales (a : Nat) : a ∈ scales ↔ 1 ≤ a ∧ a ≤ 16 := by
  simp only [scales, List.mem_map, List.mem_range]
  exact ⟨fun ⟨x, h1, h2⟩ => by omega, fun h => ⟨a - 1, by omega, by omega⟩⟩

theorem mem_clerkNumbers (a : Nat) : a ∈ clerkNumbers ↔ 1 ≤ a ∧ a ≤ 24 := by
  simp only [clerkNumbers, List.mem_map, List.mem_range]
  exact ⟨fun ⟨x, h1, h2⟩ => by omega, fun h => ⟨a - 1, by omega, by omega⟩⟩

/-! ## Each block -/

theorem State.restartLine_station (s : State) (a : Nat) :
    s.restartLine.station a = if 1 ≤ a ∧ a ≤ 18 then restartedStation (s.station a) else s.station a := by
  have h := State.foldl_station restartedStation stationAddresses (by decide) s a
  simp only [mem_stationAddresses] at h
  rw [← h]
  unfold State.restartLine State.station
  dsimp only

theorem State.restartChannels_channel (s : State) (a : Nat) :
    s.restartChannels.channel a = if 1 ≤ a ∧ a ≤ 16 then emptied (s.channel a) else s.channel a := by
  have h := State.foldl_channel emptied scales (by decide) s a
  simp only [mem_scales] at h
  rw [← h]
  unfold State.restartChannels
  rfl

/-- A fold of writes over the entries of a canonical table, each computed from its own entry. -/
theorem Tbl.read_foldl_write {α : Type} [DecidableEq α] (d : α) (f : α → α) (hd : f d = d) (l t : Tbl α)
    (hl : Tbl.wf d l) (n : Nat) (ht : Tbl.read d t n = Tbl.read d l n) :
    Tbl.read d (l.foldl (fun u e => Tbl.write d u e.1 (f e.2)) t) n = f (Tbl.read d l n) := by
  suffices h : ∀ (l t : Tbl α), l.Pairwise (fun x y => x.1 < y.1) →
      Tbl.read d (l.foldl (fun u e => Tbl.write d u e.1 (f e.2)) t) n
        = if (∃ e ∈ l, e.1 = n) then f (Tbl.read d l n) else Tbl.read d t n by
    rw [h l t hl.1]
    split
    · rfl
    · rename_i hne
      rw [ht, Tbl.read_of_absent d l n (fun e he hen => hne ⟨e, he, hen⟩), hd]
  intro l
  induction l with
  | nil => intro t _; simp
  | cons e rest ih =>
    intro t hp
    obtain ⟨h1, h2⟩ := List.pairwise_cons.mp hp
    obtain ⟨j, v⟩ := e
    rw [List.foldl_cons, ih _ h2]
    by_cases hj : j = n
    · subst hj
      have hne : ¬ ∃ e ∈ rest, e.1 = j := fun ⟨e, he, hen⟩ => by have := h1 e he; omega
      simp [hne, Tbl.read]
    · have hx : Tbl.read d ((j, v) :: rest) n = Tbl.read d rest n := by simp [Tbl.read, hj]
      have he : (∃ e ∈ (j, v) :: rest, e.1 = n) ↔ ∃ e ∈ rest, e.1 = n := by simp [hj]
      rw [hx, Tbl.read_write_ne d t _ (fun h => hj h.symm)]
      by_cases hr : ∃ e ∈ rest, e.1 = n
      · rw [if_pos hr, if_pos (he.mpr hr)]
      · rw [if_neg hr, if_neg (fun h => hr (he.mp h))]

theorem State.restartArticles_fold (l : Tbl Article) (s : State) :
    (l.foldl (fun u e => u.setArticle e.1 (restartedArticle e.2)) s).art.articles
      = l.foldl (fun u e => Tbl.write Article.powerOn u e.1 (restartedArticle e.2)) s.art.articles := by
  induction l generalizing s with
  | nil => rfl
  | cons e rest ih => rw [List.foldl_cons, List.foldl_cons, ih]; rfl

theorem State.restartArticles_article {s : State} (h : Tbl.wf Article.powerOn s.art.articles) (n : Nat) :
    s.restartArticles.article n = restartedArticle (s.article n) := by
  have hr := State.restartArticles_fold s.art.articles s
  have hw := Tbl.read_foldl_write Article.powerOn restartedArticle rfl s.art.articles s.art.articles h n rfl
  rw [← hr] at hw
  unfold State.article State.restartArticles
  dsimp only
  exact hw

/-! ## The slot after the restart -/

theorem State.firstAfter_mem {s : State} {p : StationState → Bool} {q a : Nat} (h : s.firstAfter p q = some a) :
    1 ≤ a ∧ a ≤ 18 ∧ p (s.station a).state = true := by
  unfold State.firstAfter at h
  have h1 := List.mem_of_find?_eq_some h
  have h2 := List.find?_some h
  simp only [List.mem_map, List.mem_range] at h1
  obtain ⟨i, -, rfl⟩ := h1
  exact ⟨by omega, by omega, h2⟩

/-- Where no station is polled, the next slot is a probe or none: no station's record changes, the visit pointer and the
slot count stay, and the probe pointer stands at the probed station (R3). -/
theorem State.nextSlot_unpolled {s : State} (h : ∀ a, 1 ≤ a → a ≤ 18 → polled (s.station a).state = false)
    (hv : s.lc.visit = none) :
    s.nextSlot.lc.stations = s.lc.stations ∧ (∀ v, s.nextSlot.lc.visit = some v → v.probe = true)
      ∧ s.nextSlot.lc.visitPtr = s.lc.visitPtr ∧ s.nextSlot.lc.slotCount = s.lc.slotCount
      ∧ s.nextSlot.lc.probePtr = (match s.nextSlot.lc.visit with | some v => v.station | none => s.lc.probePtr) := by
  have hn : s.firstAfter polled s.lc.visitPtr = none := by
    cases hf : s.firstAfter polled s.lc.visitPtr with
    | none => rfl
    | some a =>
      obtain ⟨h1, h2, h3⟩ := State.firstAfter_mem hf
      rw [h a h1 h2] at h3
      cases h3
  unfold State.nextSlot
  split
  · unfold State.beginSlot
    rw [hn]
    split
    · exact ⟨rfl, (fun v hv' => by rw [hv] at hv'; cases hv'), rfl, rfl, by rw [hv]⟩
    · refine ⟨rfl, fun v hv' => ?_, rfl, rfl, rfl⟩
      simp only [State.beginProbe, State.openVisit, Option.some.injEq] at hv'
      rw [← hv']
    · rename_i h1 _
      cases h1
    · rename_i h1 _
      cases h1
  · exact ⟨rfl, (fun v hv' => by rw [hv] at hv'; cases hv'), rfl, rfl, by rw [hv]⟩

/-! ## The whole restart -/

theorem State.station_of_stations {s t : State} (h : t.lc.stations = s.lc.stations) (a : Nat) :
    t.station a = s.station a := by
  unfold State.station
  rw [h]

/-- A warm restart, block by block (R23, R47, R85, R106, R133, R147, R157, R162, R172, R181, R191): it leaves what
State.Restarted says, and the stored response and the RESET mark as they were. -/
theorem State.warmRestart_restarted (s : State) (cause : StartCause) (hw : s.tablesSound) :
    s.Restarted (s.warmRestart cause) cause (restartSubject cause) ∧
    (s.warmRestart cause).op.response = s.op.response ∧ (s.warmRestart cause).op.ready = s.op.ready ∧
    (s.warmRestart cause).op.resetLow = s.op.resetLow := by
  obtain ⟨w1, hw1⟩ : ∃ x, x = s.restartLine := ⟨_, rfl⟩
  obtain ⟨w2, hw2⟩ : ∃ x, x = w1.restartChannels := ⟨_, rfl⟩
  obtain ⟨w3, hw3⟩ : ∃ x, x = w2.restartArticles := ⟨_, rfl⟩
  obtain ⟨w4, hw4⟩ : ∃ x, x = w3.restartService := ⟨_, rfl⟩
  obtain ⟨w5, hw5⟩ : ∃ x, x = w4.enterLevel .normal := ⟨_, rfl⟩
  obtain ⟨w6, hw6⟩ : ∃ x, x = w5.restartPort cause := ⟨_, rfl⟩
  have he : s.warmRestart cause = w6.nextSlot := by unfold State.warmRestart; rw [hw6, hw5, hw4, hw3, hw2, hw1]
  have c1 : Changes [.lc] s w1 := by rw [hw1]; simp
  have c2 : Changes [.we] w1 w2 := by rw [hw2]; simp
  have c3 : Changes [.art, .cd] w2 w3 := by rw [hw3]; simp
  have c4 : Changes [.sc] w3 w4 := by rw [hw4]; simp
  have c5 : Changes [.qc] w4 w5 := by rw [hw5]; simp
  have c6 : Changes [.op] w5 w6 := by rw [hw6]; simp
  have c7 : Changes [.lc] w6 w6.nextSlot := by simp
  rw [he]
  have lc6 : w6.lc = w1.lc := by
    rw [c6.same .lc rfl, c5.same .lc rfl, c4.same .lc rfl, c3.same .lc rfl, c2.same .lc rfl]
  have op5 : w5.op = s.op := by
    rw [c5.same .op rfl, c4.same .op rfl, c3.same .op rfl, c2.same .op rfl, c1.same .op rfl]
  have op3 : w3.op = s.op := by
    rw [c3.same .op rfl, c2.same .op rfl, c1.same .op rfl]
  have op4 : w4.op = s.op := by rw [c4.same .op rfl, op3]
  have op6 : w6.nextSlot.op = (w5.restartPort cause).op := by rw [c7.same .op rfl, hw6]
  have sc7 : w6.nextSlot.sc = w3.restartService.sc := by rw [c7.same .sc rfl, c6.same .sc rfl, c5.same .sc rfl, hw4]
  have sc3 : w3.sc = s.sc := by rw [c3.same .sc rfl, c2.same .sc rfl, c1.same .sc rfl]
  have we7 : w6.nextSlot.we = w1.restartChannels.we := by
    rw [c7.same .we rfl, c6.same .we rfl, c5.same .we rfl, c4.same .we rfl, c3.same .we rfl, hw2]
  have we1 : w1.we = s.we := c1.same .we rfl
  have art7 : w6.nextSlot.art = w2.restartArticles.art := by
    rw [c7.same .art rfl, c6.same .art rfl, c5.same .art rfl, c4.same .art rfl, hw3]
  have art2 : w2.art = s.art := by rw [c2.same .art rfl, c1.same .art rfl]
  have cd7 : w6.nextSlot.cd = w2.restartArticles.cd := by
    rw [c7.same .cd rfl, c6.same .cd rfl, c5.same .cd rfl, c4.same .cd rfl, hw3]
  have qc7 : w6.nextSlot.qc = (w4.enterLevel .normal).qc := by rw [c7.same .qc rfl, c6.same .qc rfl, hw5]
  have qc4 : w4.qc = s.qc := by rw [c4.same .qc rfl, c3.same .qc rfl, c2.same .qc rfl, c1.same .qc rfl]
  have st1 (a : Nat) : w1.station a = if 1 ≤ a ∧ a ≤ 18 then restartedStation (s.station a) else s.station a := by
    rw [hw1]; exact s.restartLine_station a
  have hns := State.nextSlot_unpolled (s := w6) (fun a h1 h2 => by
    rw [State.station_of_lc lc6, st1, if_pos ⟨h1, h2⟩]
    unfold restartedStation departed
    dsimp only
    split <;> rfl) (by rw [lc6, hw1]; rfl)
  have hsc := State.foldl_prints_rest (fun r => { r with lastProof := none }) scales
    (clerkNumbers.foldl (fun v c => v.setClerk c { v.clerk c with scale := none })
      (w3.setTickets (w3.sc.tickets.map (restartedTicket w3.op.now (moment w3.op.now (1000 * w3.op.settings.idleNormal)) w3.parkDeadline))))
  have hsc2 := State.foldl_clerks_rest (fun r => { r with scale := none }) clerkNumbers
      (w3.setTickets (w3.sc.tickets.map (restartedTicket w3.op.now (moment w3.op.now (1000 * w3.op.settings.idleNormal)) w3.parkDeadline)))
  dsimp only at hsc hsc2
  refine ⟨{ stations := ?_, visits := hns.2.1, slots := ?_, channels := ?_, articles := ?_, copies := ?_, clerks := ?_, tickets := ?_, lastTicket := ?_, prints := ?_, queue := ?_, watch := ?_, totals := ?_, time := ?_, settings := ?_, notices := ?_, start := ?_, line := ?_ }, ?_, ?_, ?_⟩
  · intro a h1 h2
    rw [State.station_of_stations hns.1, State.station_of_lc lc6, st1, if_pos ⟨h1, h2⟩]
    rfl
  · obtain ⟨-, -, h1, h2, h3⟩ := hns
    refine ⟨?_, ?_, ?_⟩
    · rw [h1, lc6, hw1]
      rfl
    · rw [h2, lc6, hw1]
      rfl
    · rw [h3, lc6, hw1]
      rfl
  · intro a h1 h2
    rw [State.channel_of_we we7, State.restartChannels_channel, if_pos ⟨h1, h2⟩, State.channel_of_we we1]
    rfl
  · intro n
    rw [State.article_of_art art7, State.restartArticles_article (by rw [art2]; exact hw.2.2.1), State.article_of_art art2]
    unfold restartedArticle articleAfter
    cases (s.article n).state <;> simp
  · rw [cd7]; rfl
  · intro c h1 h2
    have hf := State.foldl_clerk (fun r => { r with scale := none }) clerkNumbers (by decide) (w3.setTickets (w3.sc.tickets.map (restartedTicket w3.op.now (moment w3.op.now (1000 * w3.op.settings.idleNormal)) w3.parkDeadline))) c
    simp only [mem_clerkNumbers, h1, h2, and_self, if_true] at hf
    have e1 : w6.nextSlot.clerk c = w3.restartService.clerk c := by unfold State.clerk; rw [sc7]
    rw [e1]
    have e2 : w3.clerk c = s.clerk c := by unfold State.clerk; rw [sc3]
    have e4 : ∀ l, State.clerk (w3.setTickets l) c = w3.clerk c := fun l => rfl
    rw [e4, e2] at hf
    rw [← hf]
    have e5 : w3.restartService.sc.clerks = _ := hsc.1
    exact congrArg (fun l => Tbl.read Clerk.powerOn l c) e5
  · rw [sc7]
    unfold State.restartService
    rw [hsc.2.1, hsc2.2.1, State.tickets_setTickets, sc3, op3]
    unfold State.parkDeadline
    rw [op3]
    refine List.map_congr_left (fun t _ => ?_)
    cases t with
    | mk number kind q clerk state items total o l aSeen => cases state <;> rfl
  · rw [sc7]
    unfold State.restartService
    rw [hsc.2.2, hsc2.2.2]
    simp [sc3]
  · intro a h1 h2
    have hf := State.foldl_printRecord (fun r => { r with lastProof := none }) scales (by decide) (clerkNumbers.foldl (fun v c => v.setClerk c { v.clerk c with scale := none }) (w3.setTickets (w3.sc.tickets.map (restartedTicket w3.op.now (moment w3.op.now (1000 * w3.op.settings.idleNormal)) w3.parkDeadline)))) a
    simp only [mem_scales, h1, h2, and_self, if_true] at hf
    have e1 : w6.nextSlot.printRecord a = w3.restartService.printRecord a := by unfold State.printRecord; rw [sc7]
    rw [e1]
    unfold State.restartService
    rw [hf]
    have e3 : State.printRecord (clerkNumbers.foldl (fun v c => v.setClerk c { v.clerk c with scale := none }) (w3.setTickets (w3.sc.tickets.map (restartedTicket w3.op.now (moment w3.op.now (1000 * w3.op.settings.idleNormal)) w3.parkDeadline)))) a = s.printRecord a := by
      unfold State.printRecord
      rw [hsc2.1]
      simp [sc3]
    rw [e3]
  · rw [qc7]
    unfold State.enterLevel State.residencyMinimum
    rw [qc4, op4]
  · show w6.nextSlot.wu = s.wu
    rw [c7.same .wu rfl, c6.same .wu rfl, c5.same .wu rfl, c4.same .wu rfl, c3.same .wu rfl, c2.same .wu rfl, c1.same .wu rfl]
  · show w6.nextSlot.tu = s.tu
    rw [c7.same .tu rfl, c6.same .tu rfl, c5.same .tu rfl, c4.same .tu rfl, c3.same .tu rfl, c2.same .tu rfl, c1.same .tu rfl]
  all_goals
    rw [op6]
    unfold State.restartPort State.raise OfficePort.place OfficePort.evalIrq irqLevel
    simp [op5]

end Sys2Proof.Machine
end

