-- ==== Sys2Proof/Laws/Tickets.lean ====
section
/-! SUPPORT. The ticket table: what is found after a record is put in or replaced, and the number a new ticket takes
(R114, R117, R118). -/

namespace Sys2Proof.Machine

theorem State.exec_taken {s : State} {a : Nat} (h : s.takes a) (f : State → State) {r : State}
    (hf : f (s.markTaken a) = r) :
    (Host.Outcome.next (s.deliverAction a f) : Host.Outcome State Fault Refusal) = Host.Outcome.next r := by
  rw [State.deliverAction_takes h, hf]

theorem State.atLimit_iff (s : State) (c : Nat) : s.atLimit c = true ↔
    (if s.qc.level = .rush then 2 else 1) ≤ (s.sc.tickets.filter (fun k => k.clerk == c && k.kind == .counter && openOrHeld k)).length := by
  unfold State.atLimit State.clerkLimit
  cases s.qc.level <;> simp

theorem find?_insertTicket (k : Ticket) (l : List Ticket) (m : Nat) (hm : m ≠ k.number) :
    (insertTicket k l).find? (fun t => t.number == m) = l.find? (fun t => t.number == m) := by
  induction l with
  | nil => simp [insertTicket, Ne.symm hm]
  | cons x rest ih =>
    unfold insertTicket
    split
    · simp [Ne.symm hm]
    · simp only [List.find?_cons, ih]

theorem find?_insertTicket_self (k : Ticket) (l : List Ticket) (h : ∀ t ∈ l, t.number ≠ k.number) :
    (insertTicket k l).find? (fun t => t.number == k.number) = some k := by
  induction l with
  | nil => simp [insertTicket]
  | cons x rest ih =>
    unfold insertTicket
    split
    · simp
    · have hx := h x (by simp)
      simp only [List.find?_cons]
      have : (x.number == k.number) = false := by simpa using hx
      rw [this]
      exact ih (fun t ht => h t (by simp [ht]))

theorem find?_replaceTicket (u : Ticket) (l : List Ticket) (m : Nat) (hm : m ≠ u.number) :
    (replaceTicket u l).find? (fun t => t.number == m) = l.find? (fun t => t.number == m) := by
  unfold replaceTicket
  induction l with
  | nil => rfl
  | cons x rest ih =>
    simp only [List.map_cons, List.find?_cons, ih]
    by_cases hx : x.number = u.number
    · have h1 : (u.number == m) = false := by simpa using Ne.symm hm
      have h2 : (x.number == m) = false := by rw [hx]; exact h1
      simp [hx, h1]
    · simp [hx]

theorem find?_replaceTicket_self (u : Ticket) (l : List Ticket) (h : ∃ t ∈ l, t.number = u.number) :
    (replaceTicket u l).find? (fun t => t.number == u.number) = some u := by
  unfold replaceTicket
  induction l with
  | nil => obtain ⟨t, ht, _⟩ := h; cases ht
  | cons x rest ih =>
    simp only [List.map_cons, List.find?_cons]
    by_cases hx : x.number = u.number
    · simp [hx]
    · have : (x.number == u.number) = false := by simpa using hx
      simp only [hx, if_false, this]
      obtain ⟨t, ht, he⟩ := h
      rcases List.mem_cons.mp ht with h1 | h1
      · subst h1; exact (hx he).elim
      · exact ih ⟨t, h1, he⟩

theorem State.ticketOf_mem {s : State} {n : Nat} {k : Ticket} (h : s.ticketOf n = some k) :
    k ∈ s.sc.tickets ∧ k.number = n := by
  unfold State.ticketOf at h
  exact ⟨List.mem_of_find?_eq_some h, by simpa using List.find?_some h⟩

theorem find?_getD_first {l : List Nat} {p : Nat → Bool} (h : ∃ x ∈ l, p x = true) (f : Nat → Nat) (m : Nat)
    (hl : l = (List.range m).map f) (d : Nat) :
    ∃ i, i < m ∧ (∀ j, j < i → p (f j) = false) ∧ p (f i) = true ∧ (l.find? p).getD d = f i := by
  subst hl
  induction m generalizing f with
  | zero => obtain ⟨x, hx, _⟩ := h; simp at hx
  | succ m ih =>
    rw [List.range_succ_eq_map, List.map_cons, List.find?_cons]
    cases hp : p (f 0)
    · simp only [List.map_map]
      have h' : ∃ x ∈ (List.range m).map (fun i => f (i + 1)), p x = true := by
        obtain ⟨x, hx, hpx⟩ := h
        rw [List.range_succ_eq_map, List.map_cons, List.map_map] at hx
        rcases List.mem_cons.mp hx with h1 | h1
        · subst h1; rw [hp] at hpx; cases hpx
        · exact ⟨x, h1, hpx⟩
      obtain ⟨i, h1, h2, h3, h4⟩ := ih (fun i => f (i + 1)) h'
      refine ⟨i + 1, by omega, fun j hj => ?_, h3, h4⟩
      cases j with
      | zero => exact hp
      | succ j => exact h2 j (by omega)
    · exact ⟨0, by omega, fun j hj => by omega, hp, rfl⟩

theorem State.freshTicketNumber_first (s : State) (hn : s.sc.tickets.length < 64) :
    ∃ i, i < 999 ∧ (∀ j, j < i → s.ticketOf ((s.sc.lastTicket + j) % 999 + 1) ≠ none) ∧
    s.freshTicketNumber = (s.sc.lastTicket + i) % 999 + 1 ∧ s.ticketOf ((s.sc.lastTicket + i) % 999 + 1) = none := by
  have hf := State.freshTicketNumber_free hn
  have hnone : s.ticketOf s.freshTicketNumber = none := by
    unfold State.ticketOf
    rw [List.find?_eq_none]
    intro t ht; simpa using hf.1 t ht
  have hex : ∃ x ∈ (List.range 999).map (fun i => (s.sc.lastTicket + i) % 999 + 1), (fun n => (s.ticketOf n).isNone) x = true := by
    refine ⟨s.freshTicketNumber, ?_, by simp [hnone]⟩
    rw [List.mem_map]
    refine ⟨(s.freshTicketNumber - 1 + 999 - s.sc.lastTicket % 999) % 999, List.mem_range.mpr (Nat.mod_lt _ (by omega)), ?_⟩
    have := hf.2
    have h2 := Nat.mod_lt s.sc.lastTicket (show 0 < 999 by omega)
    omega
  obtain ⟨i, h1, h2, h3, h4⟩ := find?_getD_first hex _ 999 rfl 1
  refine ⟨i, h1, fun j hj => ?_, h4, by simpa using h3⟩
  have := h2 j hj
  intro hx
  rw [hx] at this; cases this

theorem State.freshTicketNumber_of_sc {s t : State} (h : t.sc = s.sc) : t.freshTicketNumber = s.freshTicketNumber := by
  unfold State.freshTicketNumber State.ticketOf; rw [h]

end Sys2Proof.Machine
end

