-- ==== Sys2Proof/Laws/Rush.lean ====
section
/-! SUPPORT. A CALLOUT offered, the recomputation of idle deadlines, and an examination of the rush condition (R18, R120,
R153, R157, R158). -/

namespace Sys2Proof.Machine

/-! ## A CALLOUT offered (R18, R153) -/

/-- The first unsent entry of a kind, where it stands in the queue. -/
theorem replaceUnsent_at {p : DownMsg → Bool} {m : DownMsg} {l r : List Entry} {e : Entry} (he : unsent p e = true)
    (hl : ∀ x ∈ l, unsent p x = false) : replaceUnsent p m (l ++ e :: r) = l ++ { msg := m, sent := false } :: r := by
  induction l with
  | nil => simp [replaceUnsent, he]
  | cons x rest ih =>
    have hx := hl x (by simp)
    simp only [List.cons_append, replaceUnsent, hx, Bool.false_eq_true, if_false]
    rw [ih (fun y hy => hl y (by simp [hy]))]

theorem State.offerCallout_qc (s : State) : s.offerCallout.qc = s.qc := by
  have h : Changes [.lc] s s.offerCallout := by simp
  exact h.same .qc rfl

theorem unsent_callout {e : Entry} : unsent isCallout e = true ↔ e.sent = false ∧ isCallout e.msg = true := by
  unfold unsent; cases e.sent <;> simp

/-- What one offer of a CALLOUT leaves of the display (R18, R153). -/
theorem State.offerCallout_offered (s : State) : s.CalloutOffered s.offerCallout := by
  unfold State.CalloutOffered
  dsimp only
  rw [State.offerCallout_qc]
  refine ⟨fun h => ?_, fun h => ⟨fun l e r hq he hl => ?_, fun hn => ⟨fun hr => ?_, fun hr => ?_⟩⟩⟩
  · unfold State.offerCallout; rw [h]; rfl
  · have hu : ∀ x, ¬ (x.sent = false ∧ isCallout x.msg = true) → unsent isCallout x = false := fun x hx => by
      rw [Bool.eq_false_iff]; exact fun g => hx (unsent_callout.mp g)
    have ha : (s.station 18).queue.any (unsent isCallout) = true := by
      rw [hq, List.any_eq_true]; exact ⟨e, by simp, unsent_callout.mpr he⟩
    unfold State.offerCallout
    dsimp only
    rw [if_pos h, if_pos ha, State.station_setStation, if_pos rfl]
    congr 1
    rw [hq]
    exact replaceUnsent_at (unsent_callout.mpr he) (fun x hx => hu x (hl x hx))
  all_goals
    have ha : ¬ (s.station 18).queue.any (unsent isCallout) = true := by
      rw [List.any_eq_true]
      rintro ⟨x, hx, hx2⟩
      exact hn x hx (unsent_callout.mp hx2)
    unfold State.offerCallout
    dsimp only
    rw [if_pos h, if_neg ha]
    unfold free
  · rw [if_pos (by omega), State.station_setStation, if_pos rfl]; rfl
  · rw [if_neg (by omega)]

/-- The offer reads only the display's record and the queue record. -/
theorem State.CalloutOffered.congr {s s' t t' : State} (h : s.CalloutOffered t) (hs : s'.station 18 = s.station 18)
    (hq : t'.qc = t.qc) (ht : t'.station 18 = t.station 18) : s'.CalloutOffered t' := by
  unfold State.CalloutOffered State.inService at *
  dsimp only at *
  rw [hs, hq, ht]
  exact h

/-! ## The recomputation of R158 step 2 -/

theorem State.putTicket_ticketOf (s : State) (x : Ticket) (n : Nat) (h : (s.ticketOf x.number).isSome = true) :
    (s.putTicket x).ticketOf n = if n = x.number then some x else s.ticketOf n := by
  unfold State.putTicket State.setTickets State.ticketOf at *
  dsimp only
  split
  · rename_i hn
    rw [hn]
    refine find?_replaceTicket_self x _ ?_
    obtain ⟨k, hk⟩ := Option.isSome_iff_exists.mp h
    exact ⟨k, List.mem_of_find?_eq_some hk, by simpa using List.find?_some hk⟩
  · rename_i hn
    exact find?_replaceTicket _ _ _ hn

/-- The clerk is one whose active ticket stands in a list and is overdue. -/
def losesActive (now timeout : Nat) (l : List Ticket) (c : Nat) (r : Clerk) : Prop :=
  ∃ x ∈ l, r.active = some x.number ∧ x.clerk = c ∧ overdue now timeout x

/-- What the recomputation of a list of tickets leaves (R120, R126, R158). -/
structure Recomputed (l : List Ticket) (s t : State) : Prop where
  frame : Changes [.sc, .we] s t
  listed : ∀ x ∈ l, t.ticketOf x.number = some (ticketRetimed s.op.now s.idleTimeout s.parkDeadline x)
  unlisted : ∀ n, (∀ x ∈ l, x.number ≠ n) → t.ticketOf n = s.ticketOf n
  parked : ∀ c, losesActive s.op.now s.idleTimeout l c (s.clerk c) → t.clerk c = { s.clerk c with active := none }
  others : ∀ c, ¬ losesActive s.op.now s.idleTimeout l c (s.clerk c) → t.clerk c = s.clerk c
  mirrored : ∀ c a, losesActive s.op.now s.idleTimeout l c (s.clerk c) → (s.clerk c).scale = some a →
    (t.channel a).ctx.activeTicket = none
  absent : ∀ a, (s.channel a).ctx.activeTicket = none → (t.channel a).ctx.activeTicket = none

theorem State.deactivate_spec (s : State) (x : Ticket) (c : Nat) : (s.deactivate x).clerk c =
    if c = x.clerk ∧ (s.clerk c).active = some x.number then { s.clerk c with active := none } else s.clerk c := by
  unfold State.deactivate
  by_cases h : (s.clerk x.clerk).active = some x.number
  · rw [if_pos h, State.setActive_clerk]
    by_cases hc : c = x.clerk
    · subst hc; rw [if_pos rfl, if_pos ⟨rfl, h⟩]
    · rw [if_neg hc, if_neg (fun g => hc g.1)]
  · rw [if_neg h, if_neg]
    rintro ⟨hc, ha⟩
    subst hc
    exact h ha

theorem State.deactivate_absent (s : State) (x : Ticket) (a : Nat) (h : (s.channel a).ctx.activeTicket = none) :
    ((s.deactivate x).channel a).ctx.activeTicket = none := by
  unfold State.deactivate
  split
  · rw [State.setActive_channel]; split
    · rfl
    · exact h
  · exact h

theorem State.deactivate_mirror (s : State) (x : Ticket) (a : Nat) (h : (s.clerk x.clerk).active = some x.number)
    (ha : (s.clerk x.clerk).scale = some a) : ((s.deactivate x).channel a).ctx.activeTicket = none := by
  unfold State.deactivate
  rw [if_pos h, State.setActive_channel, if_pos ha]

theorem State.times_of_changes {s t : State} (h : Changes [.sc, .we] s t) :
    t.op.now = s.op.now ∧ t.idleTimeout = s.idleTimeout ∧ t.parkDeadline = s.parkDeadline := by
  have h1 := h.same .op rfl
  have h2 := h.same .qc rfl
  unfold State.idleTimeout State.parkDeadline
  rw [h1, h2]
  exact ⟨rfl, rfl, rfl⟩

theorem Recomputed.nil (s : State) : Recomputed [] s s :=
  ⟨⟨fun b _ => by cases b <;> rfl⟩, fun x hx => absurd hx (by simp), fun n _ => rfl,
    fun c ⟨x, hx, _⟩ => absurd hx (by simp), fun c _ => rfl, fun c a ⟨x, hx, _⟩ => absurd hx (by simp), fun a h => h⟩

/-- One more ticket recomputed, before the rest of the list. -/
theorem Recomputed.cons {x : Ticket} {l : List Ticket} {s t u : State} (h : Recomputed [x] s t) (g : Recomputed l t u)
    (hx : ∀ y ∈ l, y.number ≠ x.number) : Recomputed (x :: l) s u := by
  obtain ⟨e1, e2, e3⟩ := State.times_of_changes h.frame
  have hc : ∀ c, (t.clerk c).scale = (s.clerk c).scale := fun c => by
    by_cases hl : losesActive s.op.now s.idleTimeout [x] c (s.clerk c)
    · rw [h.parked c hl]
    · rw [h.others c hl]
  have split : ∀ c, losesActive s.op.now s.idleTimeout (x :: l) c (s.clerk c) →
      losesActive s.op.now s.idleTimeout [x] c (s.clerk c)
      ∨ ¬ losesActive s.op.now s.idleTimeout [x] c (s.clerk c)
        ∧ losesActive s.op.now s.idleTimeout l c (s.clerk c) := by
    rintro c ⟨y, hy, ha, hr⟩
    rcases List.mem_cons.mp hy with hy | hy
    · subst hy; exact .inl ⟨y, by simp, ha, hr⟩
    · by_cases hl : losesActive s.op.now s.idleTimeout [x] c (s.clerk c)
      · exact .inl hl
      · exact .inr ⟨hl, y, hy, ha, hr⟩
  have noneLeft : ∀ c, losesActive s.op.now s.idleTimeout [x] c (s.clerk c) →
      ¬ losesActive s.op.now s.idleTimeout l c (t.clerk c) := by
    rintro c hl ⟨y, _, ha, _⟩
    rw [h.parked c hl] at ha; cases ha
  refine ⟨h.frame.both g.frame, fun y hy => ?_, fun n hn => ?_, fun c hl => ?_, fun c hl => ?_, fun c a hl ha => ?_,
    fun a ha => g.absent a (h.absent a ha)⟩
  · rcases List.mem_cons.mp hy with hy | hy
    · subst hy
      rw [g.unlisted y.number hx]
      exact h.listed y (by simp)
    · rw [g.listed y hy, e1, e2, e3]
  · rw [g.unlisted n (fun y hy => hn y (by simp [hy])), h.unlisted n (fun y hy => hn y (by simp at hy; simp [hy]))]
  · rcases split c hl with hl | ⟨hn, hl⟩
    · rw [g.others c (by rw [e1, e2]; exact noneLeft c hl), h.parked c hl]
    · have := h.others c hn
      rw [g.parked c (by rw [e1, e2, this]; exact hl), this]
  · have h1 : ¬ losesActive s.op.now s.idleTimeout [x] c (s.clerk c) := by
      rintro ⟨y, hy, hr⟩; simp at hy; exact hl ⟨y, by simp [hy], hr⟩
    have h2 := h.others c h1
    rw [g.others c, h2]
    rw [e1, e2, h2]
    rintro ⟨y, hy, hr⟩; exact hl ⟨y, by simp [hy], hr⟩
  · rcases split c hl with hl | ⟨hn, hl⟩
    · exact g.absent a (h.mirrored c a hl ha)
    · have := h.others c hn
      exact g.mirrored c a (by rw [e1, e2, this]; exact hl) (by rw [hc]; exact ha)

/-- A ticket of another state than OPEN is left as it stands. -/
theorem Recomputed.skip {x : Ticket} {s : State} (hx : s.ticketOf x.number = some x) (hs : ∀ m, x.state ≠ .opened m) :
    Recomputed [x] s s := by
  have hr : ∀ a b c, ticketRetimed a b c x = x := fun a b c => by
    unfold ticketRetimed; cases h : x.state <;> first | rfl | exact (hs _ h).elim
  have hl : ∀ a b c r, ¬ losesActive a b [x] c r := by
    rintro a b c r ⟨y, hy, _, _, ⟨m, hm⟩, _⟩
    simp at hy; subst hy; exact hs m hm
  refine ⟨⟨fun b _ => by cases b <;> rfl⟩, fun y hy => ?_, fun n _ => rfl, fun c g => (hl _ _ _ _ g).elim, fun c _ => rfl,
    fun c a g => (hl _ _ _ _ g).elim, fun a h => h⟩
  simp at hy; subst hy; rw [hr]; exact hx

/-- An OPEN ticket whose new idle deadline is still to come. -/
theorem Recomputed.moved {x : Ticket} {s : State} {m : Nat} (hx : s.ticketOf x.number = some x)
    (hs : x.state = .opened m) (hd : ¬ moment x.lastActivity s.idleTimeout ≤ s.op.now) :
    Recomputed [x] s (s.putTicket { x with state := .opened (moment x.lastActivity s.idleTimeout) }) := by
  have hr : ticketRetimed s.op.now s.idleTimeout s.parkDeadline x
      = { x with state := .opened (moment x.lastActivity s.idleTimeout) } := by
    unfold ticketRetimed; rw [hs]; dsimp only; rw [if_neg hd]
  have hl : ∀ c r, ¬ losesActive s.op.now s.idleTimeout [x] c r := by
    rintro c r ⟨y, hy, _, _, _, hy2⟩
    simp at hy; subst hy; exact hd hy2
  have hp := fun n => s.putTicket_ticketOf { x with state := .opened (moment x.lastActivity s.idleTimeout) } n
    (by rw [hx]; rfl)
  refine ⟨by simp, fun y hy => ?_, fun n hn => ?_, fun c g => (hl _ _ g).elim, fun c _ => rfl,
    fun c a g => (hl _ _ g).elim, fun a h => h⟩
  · simp at hy; subst hy; rw [hr, hp, if_pos rfl]
  · rw [hp, if_neg]; exact fun g => hn x (by simp) g.symm

/-- An OPEN ticket whose new idle deadline has passed parks. -/
theorem Recomputed.parks {x : Ticket} {s : State} {m : Nat} (hx : s.ticketOf x.number = some x)
    (hs : x.state = .opened m) (hd : moment x.lastActivity s.idleTimeout ≤ s.op.now) : Recomputed [x] s (s.park x) := by
  have hr : ticketRetimed s.op.now s.idleTimeout s.parkDeadline x = { x with state := .parked s.parkDeadline } := by
    unfold ticketRetimed; rw [hs]; dsimp only; rw [if_pos hd]
  have hl : ∀ c, losesActive s.op.now s.idleTimeout [x] c (s.clerk c)
      ↔ c = x.clerk ∧ (s.clerk c).active = some x.number := fun c => by
    constructor
    · rintro ⟨y, hy, h1, h2, _⟩
      simp at hy; subst hy; exact ⟨h2.symm, h1⟩
    · rintro ⟨h1, h2⟩
      exact ⟨x, by simp, h2, h1.symm, ⟨m, hs⟩, hd⟩
  obtain ⟨y, hy⟩ : ∃ y, y = s.putTicket { x with state := .parked s.parkDeadline } := ⟨_, rfl⟩
  have ycl : ∀ c, y.clerk c = s.clerk c := fun _ => by rw [hy]; rfl
  have ych : ∀ a, y.channel a = s.channel a := fun _ => by rw [hy]; rfl
  have e : s.park x = y.deactivate x := by
    rw [hy]; unfold State.park State.deactivate; rfl
  have hp : ∀ n, (s.park x).ticketOf n = if n = x.number then some { x with state := .parked s.parkDeadline }
      else s.ticketOf n := fun n => by
    have h1 := s.putTicket_ticketOf { x with state := .parked s.parkDeadline } n (by rw [hx]; rfl)
    rw [← h1, e]; unfold State.ticketOf; rw [State.deactivate_tickets, hy]
  refine ⟨by simp, fun z hz => ?_, fun n hn => ?_, fun c g => ?_, fun c g => ?_, fun c a g ha => ?_, fun a h => ?_⟩
  · simp at hz; subst hz; rw [hr, hp, if_pos rfl]
  · rw [hp, if_neg]; exact fun g => hn x (by simp) g.symm
  · rw [e, State.deactivate_spec, ycl, if_pos ((hl c).mp g)]
  · rw [e, State.deactivate_spec, ycl, if_neg (fun h => g ((hl c).mpr h))]
  · obtain ⟨h1, h2⟩ := (hl c).mp g
    subst h1
    rw [e]; exact y.deactivate_mirror x a (by rw [ycl]; exact h2) (by rw [ycl]; exact ha)
  · rw [e]; exact y.deactivate_absent x a (by rw [ych]; exact h)

/-- The recomputation of a list of tickets of the table, no two with one number. -/
theorem State.recompute_spec (l : List Ticket) (s : State) (hd : l.Pairwise (fun x y => x.number < y.number))
    (hm : ∀ x ∈ l, s.ticketOf x.number = some x) : Recomputed l s (s.recompute l) := by
  induction l generalizing s with
  | nil => exact .nil s
  | cons x rest ih =>
    obtain ⟨h1, h2⟩ := List.pairwise_cons.mp hd
    have hne : ∀ y ∈ rest, y.number ≠ x.number := fun y hy => by have := h1 y hy; omega
    have next : ∀ t, Recomputed [x] s t → Recomputed (x :: rest) s (t.recompute rest) := fun t ht =>
      ht.cons (ih t h2 (fun y hy => by
        rw [ht.unlisted y.number (fun z hz => by simp at hz; subst hz; exact (hne y hy).symm)]
        exact hm y (by simp [hy]))) hne
    have hx := hm x (by simp)
    unfold State.recompute
    cases hs : x.state with
    | opened m =>
      dsimp only
      split
      · exact next _ (.parks hx hs (by assumption))
      · exact next _ (.moved hx hs (by assumption))
    | held => exact next s (.skip hx (by rw [hs]; intro m hh; cases hh))
    | parked m => exact next s (.skip hx (by rw [hs]; intro m hh; cases hh))
    | printing j => exact next s (.skip hx (by rw [hs]; intro m hh; cases hh))
    | printWait => exact next s (.skip hx (by rw [hs]; intro m hh; cases hh))

/-! ## A change of level and an examination (R157, R158) -/

theorem ticketOf_of_mem {s : State} (h : s.sc.tickets.Pairwise (fun x y => x.number < y.number)) {x : Ticket}
    (hx : x ∈ s.sc.tickets) : s.ticketOf x.number = some x := by
  unfold State.ticketOf
  generalize s.sc.tickets = l at *
  induction l with
  | nil => cases hx
  | cons y rest ih =>
    obtain ⟨h1, h2⟩ := List.pairwise_cons.mp h
    rcases List.mem_cons.mp hx with hx | hx
    · subst hx; simp
    · have := h1 x hx
      rw [List.find?_cons, show (y.number == x.number) = false by simp; omega]
      exact ih h2 hx

/-- A change of the level, from a state z that the event has made of s (R157, R158). -/
theorem State.changeLevel_turned {s z : State} (hl : z.qc.level = s.qc.level)
    (hset : z.op.settings = s.op.settings)
    (hn : z.sc.tickets.Pairwise (fun x y => x.number < y.number))
    (ho : ∀ k l, (z.raise k l).op.sameNotices (s.raise k l).op) :
    s.LevelTurned (z.changeLevel (otherLevel z.qc.level)) z.op.now z.qc.waiting.length z.ticketOf z.clerk
      ∧ (z.changeLevel (otherLevel z.qc.level)).qc = (z.enterLevel (otherLevel z.qc.level)).qc := by
  obtain ⟨y, hy⟩ : ∃ y, y = z.enterLevel (otherLevel z.qc.level) := ⟨_, rfl⟩
  have ysc : y.sc = z.sc := by rw [hy]; rfl
  have yop : y.op = z.op := by rw [hy]; rfl
  have r := State.recompute_spec y.sc.tickets y (by rw [ysc]; exact hn)
    (fun x hx => ticketOf_of_mem (by rw [ysc]; exact hn) hx)
  obtain ⟨w, hw⟩ : ∃ w, w = y.recompute y.sc.tickets := ⟨_, rfl⟩
  rw [← hw] at r
  have e : z.changeLevel (otherLevel z.qc.level)
      = w.raise (levelNotice (otherLevel z.qc.level)) [levelCode (otherLevel z.qc.level), z.qc.waiting.length] := by
    rw [hw, hy]; rfl
  have eq : (z.changeLevel (otherLevel z.qc.level)).qc = y.qc := by
    rw [e]; exact r.frame.same .qc rfl
  have etk : ∀ n, (z.changeLevel (otherLevel z.qc.level)).ticketOf n = w.ticketOf n := fun n => by rw [e]; rfl
  have ecl : ∀ n, (z.changeLevel (otherLevel z.qc.level)).clerk n = w.clerk n := fun n => by rw [e]; rfl
  have ech : ∀ n, (z.changeLevel (otherLevel z.qc.level)).channel n = w.channel n := fun n => by rw [e]; rfl
  have eop : (z.changeLevel (otherLevel z.qc.level)).op
      = (z.raise (levelNotice (otherLevel z.qc.level)) [levelCode (otherLevel z.qc.level), z.qc.waiting.length]).op := by
    rw [e]; unfold State.raise; dsimp only; rw [r.frame.same .op rfl, yop]
  have ytk : ∀ n, y.ticketOf n = z.ticketOf n := fun n => State.ticketOf_of_sc ysc n
  have ycl : ∀ n, y.clerk n = z.clerk n := fun n => State.clerk_of_sc ysc n
  have ynow : y.op.now = z.op.now := by rw [yop]
  have yto : y.idleTimeout = s.nextTimeout := by
    rw [hy]; unfold State.idleTimeout State.nextTimeout State.enterLevel
    rw [hl, hset]
    cases s.qc.level <;> rfl
  have ypd : y.parkDeadline = moment z.op.now (1000 * s.op.settings.parkExpiry) := by
    unfold State.parkDeadline; rw [yop, hset]
  have other : otherLevel z.qc.level = if s.qc.level = .normal then .rush else .normal := by
    rw [hl]; cases s.qc.level <;> rfl
  refine ⟨⟨⟨?_, ?_, ?_, ?_⟩, fun n => ?_, fun c n k h1 h2 h3 h4 => ?_, fun c h1 => ?_, ?_⟩, by rw [eq, hy]⟩
  · rw [eq, hy]; exact other
  · rw [eq, hy]; rfl
  · rw [eq, hy]; unfold State.enterLevel State.residencyMinimum
    dsimp only
    rw [hl, hset]
    cases s.qc.level <;> rfl
  · rw [eq, hy]; rfl
  · rw [etk]
    cases hz : z.ticketOf n with
    | none =>
      rw [r.unlisted n, ytk, hz]; rfl
      intro x hx hxn
      have := ticketOf_of_mem (by rw [ysc]; exact hn) hx
      rw [hxn, ytk, hz] at this; cases this
    | some k =>
      obtain ⟨g1, g2⟩ := State.ticketOf_mem hz
      have := r.listed k (by rw [ysc]; exact g1)
      rw [g2, ynow, yto, ypd] at this
      rw [this]; rfl
  · have hla : losesActive y.op.now y.idleTimeout y.sc.tickets c (y.clerk c) := by
      obtain ⟨g1, g2⟩ := State.ticketOf_mem h2
      exact ⟨k, by rw [ysc]; exact g1, by rw [ycl, h1, g2], h3, by rw [ynow, yto]; exact h4⟩
    refine ⟨by rw [ecl, r.parked c hla, ycl], fun a ha => ?_⟩
    rw [ech]; exact r.mirrored c a hla (by rw [ycl]; exact ha)
  · rw [ecl, r.others c, ycl]
    rintro ⟨x, hx, g1, g2, g3⟩
    rw [ynow, yto] at g3
    rw [ycl] at g1
    exact h1 x.number x g1 (by rw [← ytk]; exact ticketOf_of_mem (by rw [ysc]; exact hn) hx) g2 g3
  · rw [eop]
    have : ∀ x : RushLevel, x = (if s.qc.level = .normal then .rush else .normal) →
        (levelNotice x = if s.qc.level = .normal then .rushOn else .rushOff)
        ∧ levelCode x = if s.qc.level = .normal then 2 else 1 := fun x hx => by
      rw [hx]; cases s.qc.level <;> exact ⟨rfl, rfl⟩
    obtain ⟨g1, g2⟩ := this _ other
    rw [g1, g2]
    exact ho _ _

/-- The examination of the rush condition in a state z that the event has made of s (R157, R158). -/
theorem State.examine_examined {s z : State} (hq : z.qc.level = s.qc.level) (hr : z.qc.residency = s.qc.residency)
    (he : z.qc.entered = s.qc.entered) (hp : z.qc.residencyPending = s.qc.residencyPending) (ho : z.op = s.op)
    (hn : z.sc.tickets.Pairwise (fun x y => x.number < y.number)) :
    s.Examined z.examine z.qc.waiting.length z.ticketOf z.clerk := by
  have hc : z.rushCondition = true ↔ s.rushHolds s.op.now z.qc.waiting.length := by
    unfold State.rushCondition State.rushHolds
    rw [hq, hr, ho, Bool.and_eq_true]
    cases s.qc.level <;> simp
  refine ⟨fun h => ?_, fun h => ?_⟩
  · have := (State.changeLevel_turned (s := s) (z := z) hq (by rw [ho]) hn
      (fun k l => by unfold State.raise; rw [ho]; exact ⟨rfl, rfl, rfl⟩)).1
    unfold State.examine
    rw [if_pos (hc.mpr h)]
    rw [ho] at this
    exact this
  · unfold State.examine
    rw [if_neg (fun g => h (hc.mp g)), ho]
    exact ⟨⟨hq, he, hr, hp⟩, fun _ => rfl, fun _ => rfl, rfl, rfl, rfl⟩

/-- An examination reads only the level, the tickets, the clerks, the service contexts and the notices it left. -/
theorem State.LevelTurned.congr {s t t' : State} {now count : Nat} {tickets : Nat → Option Ticket} {clerks : Nat → Clerk}
    (h : s.LevelTurned t now count tickets clerks) (hc : Changes [.lc] t t') :
    s.LevelTurned t' now count tickets clerks := by
  have h1 := hc.same .qc rfl
  have h2 := hc.same .sc rfl
  have h3 := hc.same .we rfl
  have h4 := hc.same .op rfl
  refine ⟨by rw [h1]; exact h.level, fun n => by rw [State.ticketOf_of_sc h2]; exact h.retimed n,
    fun c n k g1 g2 g3 g4 => ?_, fun c g => by rw [State.clerk_of_sc h2]; exact h.others c g, by rw [h4]; exact h.notice⟩
  rw [State.clerk_of_sc h2]
  obtain ⟨e1, e2⟩ := h.parked c n k g1 g2 g3 g4
  exact ⟨e1, fun a ha => by rw [State.channel_of_we h3]; exact e2 a ha⟩

theorem State.Examined.congr {s t t' : State} {count : Nat} {tickets : Nat → Option Ticket} {clerks : Nat → Clerk}
    (h : s.Examined t count tickets clerks) (hc : Changes [.lc] t t') : s.Examined t' count tickets clerks := by
  refine ⟨fun g => (h.turned g).congr hc, fun g => ?_⟩
  obtain ⟨e1, e2, e3, e4⟩ := h.kept g
  have h2 := hc.same .sc rfl
  rw [hc.same .qc rfl, hc.same .op rfl]
  exact ⟨e1, fun n => by rw [State.ticketOf_of_sc h2]; exact e2 n, fun c => by rw [State.clerk_of_sc h2]; exact e3 c, e4⟩

end Sys2Proof.Machine
end

