-- ==== Sys2Proof/Laws/Settling.lean ====
section
/-! SUPPORT. The settle check and the check of R78 at the end of an event that ends one pin (R75, R78, R97, R100, R101). -/

namespace Sys2Proof.Machine

theorem State.changeOf_number {s : State} {n : Nat} {c : Change} (h : s.changeOf n = some c) : c.article = n := by
  unfold State.changeOf at h
  simpa using List.find?_some h

theorem State.mem_oldPins {s : State} {c : Change} {b : Nat} : b ∈ s.oldPins c ↔
    b ∈ (s.article c.article).pins
      ∧ ∃ p, (s.channel b).ctx.pin = some p ∧ p.number = c.article ∧ p.revision = c.oldRevision := by
  unfold State.oldPins
  rw [List.mem_filter]
  cases h : (s.channel b).ctx.pin <;> simp

/-- The settle check of an article without a change (R100). -/
theorem State.settleCheck_quiet {s : State} {n : Nat} (h : s.changeOf n = none) : s.settleCheck n = s := by
  unfold State.settleCheck; rw [h]

/-- The settle check of a change that has not settled (R100). -/
theorem State.settleCheck_open {s : State} {n : Nat} {c : Change} (h : s.changeOf n = some c)
    (hs : s.settled c = false) : s.settleCheck n = s := by
  unfold State.settleCheck; rw [h]; simp [hs]

/-- The settle check of a change that has settled (R100, R101). -/
theorem State.settleCheck_settles {s : State} {n : Nat} {c : Change} (h : s.changeOf n = some c)
    (hs : s.settled c = true) : s.settleCheck n = (s.noteSettled c 0 0 1).closeChange n := by
  unfold State.settleCheck; rw [h]; simp [hs]

/-- What the closing of a change leaves of its article and of the change (R75, R101). -/
theorem State.closeChange_facts (s : State) (n : Nat) : (s.closeChange n).changeOf n = none
    ∧ (s.closeChange n).article n = { s.article n with state := settledState (s.article n).state }
    ∧ (s.closeChange n).op = s.op := by
  refine ⟨?_, ?_, rfl⟩
  · unfold State.changeOf State.closeChange
    show (s.cd.changes.filter (fun c => c.article != n)).find? _ = none
    rw [List.find?_eq_none]
    intro x hx
    have := (List.mem_filter.mp hx).2
    simpa using this
  · unfold State.closeChange
    dsimp only
    rw [State.article_setArticle, if_pos rfl]
    rfl

/-- The check of R78 of an article without a change. -/
theorem State.emptyCheck_swept {s : State} {n : Nat} (h : s.changeOf n = none) :
    (s.emptyCheck n).article n = (s.article n).swept ∧ (s.emptyCheck n).changeOf n = none
      ∧ (s.emptyCheck n).op = s.op := by
  unfold State.emptyCheck Article.swept
  dsimp only
  by_cases hc : (s.article n).state = .retiring ∧ (s.article n).holders = [] ∧ (s.article n).pins = []
      ∧ (s.article n).refs = 0
  · rw [if_pos ⟨hc.1, hc.2.1, hc.2.2.1, hc.2.2.2, h⟩, if_pos hc, State.article_setArticle, if_pos rfl]
    exact ⟨rfl, h, rfl⟩
  · rw [if_neg (fun g => hc ⟨g.1, g.2.1, g.2.2.1, g.2.2.2.1⟩), if_neg hc]
    exact ⟨rfl, h, rfl⟩

/-- The check of R78 passes over an article with a change in flight. -/
theorem State.emptyCheck_open {s : State} {n : Nat} {c : Change} (h : s.changeOf n = some c) : s.emptyCheck n = s := by
  unfold State.emptyCheck
  dsimp only
  rw [if_neg (fun g => by rw [h] at g; cases g.2.2.2.2)]

theorem settledState_eq (x : ArticleState) : settledState x = if x = .changing then .live else x := by
  cases x <;> rfl

/-- The end of an event that has ended scale a's pin of article n, and touched no other article, leaves what PinEnded
says (R97, R100, R101): x is the state before the checks. -/
theorem State.finish_pinEnded {s x : State} {a n : Nat} {left : Article} (ha : x.article n = left)
    (hc : x.cd.changes = s.cd.changes) (ho : x.op = s.op)
    (hl : ∀ b, b ≠ a → (b ∈ left.pins ↔ b ∈ (s.article n).pins))
    (hp : ∀ b, b ≠ a → (x.channel b).ctx.pin = (s.channel b).ctx.pin)
    (hn : ∀ c, s.changeOf n = some c → a ∉ x.oldPins c) :
    s.PinEnded (x.finish [n]) (x.finish [n]).op a n left := by
  have hf : x.finish [n] = (x.settleCheck n).emptyCheck n := rfl
  have hch : x.changeOf n = s.changeOf n := by unfold State.changeOf; rw [hc]
  have hs : ∀ c, s.changeOf n = some c → (x.settled c = true ↔ left.holders = [] ∧ ∀ b ∈ s.oldPins c, b = a) := by
    intro c h
    have hcn := State.changeOf_number h
    unfold State.settled
    rw [hcn, ha, Bool.and_eq_true, List.isEmpty_iff, List.isEmpty_iff]
    refine and_congr_right (fun _ => ⟨fun h0 b hb => ?_, fun h0 => ?_⟩)
    · by_contra hba
      obtain ⟨h1, p, h2, h3⟩ := State.mem_oldPins.mp hb
      rw [hcn] at h1 h3
      have : b ∈ x.oldPins c := State.mem_oldPins.mpr ⟨by rw [hcn, ha]; exact (hl b hba).mpr h1, p, by
        rw [hp b hba]; exact h2, by rw [hcn]; exact h3⟩
      rw [h0] at this; cases this
    · rw [List.eq_nil_iff_forall_not_mem]
      intro b hb
      by_cases hba : b = a
      · subst hba; exact hn c h hb
      · obtain ⟨h1, p, h2, h3⟩ := State.mem_oldPins.mp hb
        rw [hcn] at h1 h3
        exact hba (h0 b (State.mem_oldPins.mpr ⟨by rw [hcn]; rw [ha] at h1; exact (hl b hba).mp h1, p, by
          rw [← hp b hba]; exact h2, by rw [hcn]; exact h3⟩))
  rw [hf]
  refine ⟨fun h => ?_, fun c h h1 h2 => ?_, fun c h h1 => ?_⟩
  · rw [State.settleCheck_quiet (hch.trans h)]
    obtain ⟨e1, e2, e3⟩ := State.emptyCheck_swept (hch.trans h)
    rw [e1, e2, e3, ho, ha]
    exact ⟨rfl, ⟨rfl, rfl, rfl⟩, rfl⟩
  · have hx := (hs c h).mpr ⟨h1, h2⟩
    rw [State.settleCheck_settles (hch.trans h) hx]
    obtain ⟨f1, f2, f3⟩ := (x.noteSettled c 0 0 1).closeChange_facts n
    obtain ⟨e1, e2, e3⟩ := State.emptyCheck_swept f1
    have hcn := State.changeOf_number h
    have hop : (x.noteSettled c 0 0 1).op
        = (s.raise .changeSettled [n, changeKindCode c.kind, c.oldRevision, left.revision, 0, 0, 1]).op := by
      unfold State.noteSettled State.raise
      rw [hcn, ha, ho]
    have har : (x.noteSettled c 0 0 1).article n = left := ha
    rw [e1, e2, e3, f2, f3, hop, har, settledState_eq]
    exact ⟨rfl, ⟨rfl, rfl, rfl⟩, rfl⟩
  · have hx : x.settled c = false := by
      rw [Bool.eq_false_iff]
      intro hx
      obtain ⟨g1, g2⟩ := (hs c h).mp hx
      rcases h1 with h1 | ⟨b, hb, hne⟩
      · exact h1 g1
      · exact hne (g2 b hb)
    rw [State.settleCheck_open (hch.trans h) hx, State.emptyCheck_open (hch.trans h), hch, ho]
    exact ⟨h, ⟨rfl, rfl, rfl⟩, ha⟩

/-- The facts of PinEnded read only the changes, the article and the notices of the later state. -/
theorem State.PinEnded.congr {s s' t t' : State} {port : OfficePort} {a n : Nat} {left : Article}
    (h : s.PinEnded t port a n left) (hc : s'.changeOf n = s.changeOf n) (ho : s'.op = s.op)
    (hp : ∀ c, s'.changeOf n = some c → s'.oldPins c = s.oldPins c) (hc' : t'.changeOf n = t.changeOf n)
    (ha' : t'.article n = t.article n) : s'.PinEnded t' port a n left := by
  have hr : ∀ k l, (s'.raise k l).op = (s.raise k l).op := fun k l => by unfold State.raise; rw [ho]
  refine ⟨fun g => ?_, fun c g g1 g2 => ?_, fun c g g1 => ?_⟩
  · rw [hc', ha', ho]; exact h.alone (hc ▸ g)
  · rw [hc', ha', hr]; exact h.settles c (hc ▸ g) g1 (by rw [← hp c g]; exact g2)
  · rw [hc', ha', ho]; exact h.stays c (hc ▸ g) (by rw [← hp c g]; exact g1)

end Sys2Proof.Machine
end

