-- ==== Sys2Proof/Laws/Watch.lean ====
section
/-! SUPPORT. The WATCH_MATCH notices (R170): they follow the Office Port alone, and without a match there is none. -/

namespace Sys2Proof.Machine

theorem State.raise_op_congr {s t : State} (h : t.op = s.op) (k : NoticeKind) (l : List Nat) :
    (t.raise k l).op = (s.raise k l).op := by
  unfold State.raise
  dsimp only
  rw [h]

theorem State.noteMatches_op_congr {s t : State} (h : t.op = s.op) (r : WatchResult) (ev : WatchEvent)
    (outcome scale clerk ticket article price position : Nat) :
    (t.noteMatches r ev outcome scale clerk ticket article price position).op =
      (s.noteMatches r ev outcome scale clerk ticket article price position).op := by
  unfold State.noteMatches
  dsimp only
  cases r.a <;> cases r.b <;> dsimp only
  · exact h
  · exact raise_op_congr h _ _
  · exact raise_op_congr h _ _
  · exact raise_op_congr (raise_op_congr h _ _) _ _

theorem State.noteMatches_of_no_match (s : State) {r : WatchResult} (h : r.a = none ∧ r.b = none) (ev : WatchEvent)
    (outcome scale clerk ticket article price position : Nat) :
    s.noteMatches r ev outcome scale clerk ticket article price position = s := by
  unfold State.noteMatches
  rw [h.1, h.2]

/-- R169: an event has no outcome only where no channel matches it. -/
theorem WatchResult.no_match_of_outcome {r : WatchResult} (h : r.outcome = none) : r.a = none ∧ r.b = none := by
  obtain ⟨a, b⟩ := r
  unfold WatchResult.outcome WatchResult.has at h
  rcases a with _ | x <;> rcases b with _ | y
  · exact ⟨rfl, rfl⟩
  · cases y <;> simp at h
  · cases x <;> simp at h
  · cases x <;> cases y <;> simp at h

end Sys2Proof.Machine
end

