-- ==== Sys2Proof/Tests/Slice0.lean ====
section
/-! SUPPORT. Tests on small states: ill-formed terms that the check refuses, figures the spec works out, the effect of
some commands in one step, and for every statement a state and operands that meet its hypotheses, clause by clause. -/

namespace Sys2Proof.Tests

open Sys2Proof Sys2Proof.Machine

set_option Elab.async false

/-! ## Ill-formed terms -/

theorem test_wf_transactions :
    (Instr.responseRead 0).wf = false ∧ (Instr.badFrame 0#8 []).wf = false ∧ (Instr.badFrame 16#8 [0#8, 0#8]).wf = false
      ∧ (Instr.unknownCommand 0#8 []).wf = false ∧ (Instr.unknownCommand 145#8 []).wf = false
      ∧ (Instr.unknownCommand 7#8 (List.replicate 256 0#8)).wf = false := by decide +kernel

theorem test_wf_bodies :
    [Instr.artCreate, .artChange, .artRetire, .artRead, .stnConfig, .stnMode, .stnRead, .clkEnrol, .clkRemove, .clkRead,
      .tktRead, .tktCancel, .tktRelease, .queRead, .queReset, .wchSet, .wchRead, .totClose, .totRead, .totClear, .ctrSet,
      .ctrRead, .ctrTime, .ctrRestart, .ctrStatus, .ntcRead, .ntcAck].all
        (fun f => !(f (List.replicate 256 0#8)).wf && (f (List.replicate 255 0#8)).wf) = true := by decide +kernel

theorem test_wf_line :
    (Instr.replyFrame (List.replicate 5 0#8)).wf = false ∧ (Instr.samples 17 [.fault]).wf = false
      ∧ (Instr.samples 1 []).wf = false ∧ (Instr.samples 1 (List.replicate 5 .fault)).wf = false
      ∧ (Instr.samples 1 [.ok 8388608]).wf = false ∧ (Instr.samples 1 [.ok (-8388609)]).wf = false
      ∧ (Instr.unknownAction 1 21).wf = false ∧ (Instr.unknownAction 1 256).wf = false
      ∧ (Instr.purged 1 (some 0)).wf = false ∧ (Instr.purged 1 (some 2049)).wf = false
      ∧ (Instr.printed 1 256 true).wf = false ∧ (Instr.override 1 7 16777216).wf = false := by decide +kernel

theorem test_wf_scales :
    [Instr.clear 0, .tare 0, .clrtare 17, .zero 17, .logout 0, .newTicket 17, .voidTicket 0, .close 17, .next 0,
      .recallNumber 17, .skip 0, .select 0 1, .ptare 0 1, .qty 17 1, .login 0 1, .switch 17 1, .add 0 1, .label 17 1,
      .voidItem 0 1, .release 17 1, .override 0 1 1, .unknownAction 17 0, .purged 0 none, .printed 17 0 true].all
        (fun i => !i.wf) = true
      ∧ [Instr.select 1 65536, .ptare 1 65536, .qty 1 65536, .login 1 65536, .switch 1 65536, .add 1 65536, .label 1 65536,
        .voidItem 1 65536, .release 1 65536, .override 1 65536 1].all (fun i => !i.wf) = true := by decide +kernel

theorem test_wf_deadlines :
    [Instr.settleTimeout 0, .settleTimeout 2049, .idleDeadlineExpiry 0, .idleDeadlineExpiry 1000, .expiryDeadlineExpiry 0,
      .expiryDeadlineExpiry 1000, .printDeadlineExpiry 0, .printDeadlineExpiry 1000].all (fun i => !i.wf) = true := by
  decide +kernel

/-! ## Figures of the spec -/

/-- R5: the nine characters "123456789" give 10,673. -/
theorem test_crc : (crc [49#8, 50#8, 51#8, 52#8, 53#8, 54#8, 55#8, 56#8, 57#8]).toNat = 10673 := by decide +kernel

/-- The table of R54. -/
theorem test_roundTare :
    roundTare 126 2 = 126 ∧ roundTare 126 5 = 125 ∧ roundTare 128 5 = 130 ∧ roundTare 312 20 = 320 ∧ roundTare 1 5 = 0 := by
  decide

/-- The table of R56. -/
theorem test_effectiveUnit :
    effectiveUnit 2490 0 = 2490 ∧ effectiveUnit 2490 35 = 1619 ∧ effectiveUnit 15 50 = 8 ∧ effectiveUnit 1 90 = 0
      ∧ effectiveUnit 99999 90 = 10000 := by decide

/-- R33 and the note of R61. -/
theorem test_rounding : filterOutput 2 [-3, -2] = -2 ∧ roundCents 1619 5 = 1620 ∧ roundCents 1619 10 = 1620 := by decide

/-- The examples of R167. -/
theorem test_masks :
    (maskMatches { WatchChannel.powerOn with mask := .group16, article := 40 } 32 = true
      ∧ maskMatches { WatchChannel.powerOn with mask := .group16, article := 40 } 48 = false)
      ∧ maskMatches { WatchChannel.powerOn with mask := .group256, article := 600 } 512 = true
      ∧ maskMatches { WatchChannel.powerOn with mask := .group256, article := 600 } 768 = false := by decide

/-! ## Small states -/

/-- The state a command leaves. -/
def after (i : Instr) (s : State) : State :=
  match exec i s with
  | .next t => t
  | .fault _ => s
  | .refused _ => s

/-- The reply code, the data and the action that stand last in the queue of a station. -/
def lastReply (s : State) (a : Nat) : Option (Nat × ReplyCode × List Byte) :=
  match (s.station a).queue.getLast? with
  | some e =>
    match e.msg with
    | .reply x c d => some (x, c, d)
    | _ => none
  | none => none

def goods (mode : SaleMode) : Content := { name := [66#8], mode := mode, price := 500, markdown := 0, tare := 0 }

def pinOf (mode : SaleMode) : Snapshot := { number := 7, revision := 1, content := goods mode }

/-- A channel of clerk 3 with article 7 pinned, its verdict evaluated, stamp 1. -/
def pricedChannel (mode : SaleMode) (active : Option Nat) : Channel :=
  let ch := { Channel.powerOn with
    ctx := { clerk := some 3, activeTicket := active, pin := some (pinOf mode),
             quantity := if mode = SaleMode.byCount then some 1 else none, cancelled := false } }
  { ch with verdict := formVerdict ch 1 false, stamp := 1 }

def bread : Item :=
  { article := 7, revision := 1, mode := .fixed, net := none, tare := none, quantity := none, unit := 500, price := 500,
    scale := 1, voided := false }

/-- Ticket n of clerk c. -/
def ticket (n c : Nat) (state : TicketState) (items : List Item) : Ticket :=
  { number := n, kind := .counter, queueNumber := none, clerk := c, state := state, items := items,
    total := 500 * items.length, openedAt := 0, lastActivity := 0, aSeen := false }

/-- Scale 1 in a state, clerk 3 (a supervisor) logged in there with article 7 pinned, article 7 LIVE, and tickets, the
first of them active. -/
def shop (state : StationState) (mode : SaleMode) (l : List Ticket) : State :=
  let active := l.head?.map (·.number)
  let s := State.reset.setStation 1 { Station.powerOn with mode := .normal, state := state }
  let s := s.setChannel 1 (pricedChannel mode active)
  let s := s.setClerk 3 { enrolled := true, supervisor := true, scale := some 1, active := active }
  let s := s.setArticle 7 { Article.powerOn with
    state := .live, content := some (goods mode), revision := 1, pins := [1], refs := (l.flatMap (·.items)).length }
  s.setTickets l

/-- The same without a clerk at the scale. -/
def unmanned (s : State) : State :=
  s.setChannel 1 { s.channel 1 with ctx := { (s.channel 1).ctx with clerk := none, activeTicket := none } }

/-- Sixty-four tickets of clerk 4. -/
def full : List Ticket := (List.range 64).map (fun i => ticket (i + 1) 4 .held [])

/-- The dispenser and the display in service. -/
def street : State :=
  (State.reset.setStation 17 { Station.powerOn with mode := .normal, state := .normal }).setStation 18
    { Station.powerOn with mode := .normal, state := .normal }

/-- A visit to a station that is open. -/
def visiting (s : State) (a : Nat) (probe : Bool) (window : Option Nat) : State :=
  s.openVisit { station := a, probe := probe, frame := [], window := window }

def low (s : State) : State := { s with op := { s.op with resetLow := true } }

def takesB (s : State) (a : Nat) : Bool := isScale a && s.inService a && !s.op.resetLow && s.admits a

theorem takes_of {s : State} {a : Nat} (h : takesB s a = true) : s.takes a := by
  simp only [takesB, Bool.and_eq_true, Bool.not_eq_true'] at h
  exact ⟨⟨h.1.1.1, h.1.1.2, h.1.2⟩, h.2⟩

theorem mans_of {s : State} {a c : Nat} (h : s.clerkAt a = some c) (h' : (s.station a).state ≠ .proof) : s.mans a c :=
  ⟨h, h'⟩

/-! ## One step -/

theorem test_reset_channel_is_empty_verdict :
    formVerdict Channel.powerOn 1 false = Verdict.powerOn ∧ formVerdict Channel.powerOn 10 false = Verdict.powerOn := by
  decide +kernel

/-- The first eight rows of the worked example of R1 to R24: a probe answered by NIL starts the join. -/
theorem test_probe_starts_join :
    (((after (.replyFrame (replyChars 5 { uSeq := false, dAck := false, hold := false, msg := .nil }))
      (visiting (State.reset.setStation 5 { Station.powerOn with mode := .normal, state := .absent }) 5 true none)).station
        5).state = .joining) := by decide +kernel

theorem test_wrong_check_is_a_miss :
    let s := after (.replyFrame [1#8, 16#8, 0#8, 0#8, 0#8, 0#8]) (visiting (shop .normal .fixed []) 1 false none)
    (s.station 1).miss = 1 ∧ (s.station 1).score = 4 := by decide +kernel

theorem test_new_opens_ticket_one :
    lastReply (after (.newTicket 1) (shop .normal .fixed [])) 1 = some (10, .ok, [0#8, 1#8])
      ∧ (after (.newTicket 1) (shop .normal .fixed [])).sc.lastTicket = 1 := by decide +kernel

theorem test_add_places_item :
    let s := after (.add 1 1) (shop .normal .fixed [ticket 5 3 (.opened 120000) []])
    (s.ticketOf 5).map (fun k => (k.total, k.items.length)) = some (500, 1) ∧ (s.article 7).refs = 1
      ∧ (s.article 7).pins = [] ∧ (s.channel 1).stamp = 2 := by decide +kernel

theorem test_add_refused_stale :
    lastReply (after (.add 1 0) (shop .normal .fixed [ticket 5 3 (.opened 120000) []])) 1 = some (12, .stale, []) := by
  decide +kernel

theorem test_close_prints :
    let s := after (.close 1) (shop .normal .fixed [ticket 5 3 (.opened 120000) [bread]])
    lastReply s 1 = some (16, .ok, [0#8, 5#8, 1#8, 0#8, 0#8, 1#8, 244#8, 0#8])
      ∧ (s.ticketOf 5).map (·.state) = some (.printing { scale := 1, tag := 0, deadline := 15000 }) := by decide +kernel

theorem test_take_issues_one :
    lastReply (after .take street) 17 = some (21, .ok, [1#8]) ∧ (after .take street).qc.nextNumber = 2 := by decide +kernel

theorem test_select_fills_and_shows :
    let s := after (.select 1 7) (shop .normal .byCount [])
    ((s.station 1).queue.map (fun e => downKind e.msg)) = [2, 5] ∧ s.copyMap 1 = [{ article := 7, revision := 1, purging := false }]
      ∧ (s.article 7).holders = [1] := by decide +kernel

/-- Scale 1 holds a copy of article 7 that a change in flight waits for. -/
def holding : State :=
  ((shop .normal .fixed []).setCopyMap 1 [{ article := 7, revision := 0, purging := true }]).setChanges
    [{ article := 7, kind := .change, oldRevision := 0, deadline := 10000 }] |>.setArticle 7
      { (shop .normal .fixed []).article 7 with state := .changing, holders := [1] }

theorem test_settle_timeout_detaches :
    let s := after (.settleTimeout 7) holding
    (s.station 1).state = .detached ∧ (s.article 7).state = .live ∧ s.op.now = 10000
      ∧ s.op.fifo.map (·.kind) = [.stationDetached, .changeSettled] ∧ s.copyMap 1 = [] := by decide +kernel

theorem test_change_cancels_unsent_fill :
    let s := after (.artChange [0#8, 7#8, 3#8, 0#8, 1#8, 0#8, 0#8, 0#8, 0#8, 1#8, 66#8])
      (after (.select 1 7) (shop .normal .fixed []))
    (s.article 7).state = .changing ∧ (s.article 7).holders = [] ∧ s.copyMap 1 = []
      ∧ ((after (.settleTimeout 7) s).channel 1).ctx.cancelled = true := by decide +kernel

theorem test_totals_post :
    let s := after (.printed 1 0 true)
      (shop .normal .fixed [ticket 5 3 (.printing { scale := 1, tag := 0, deadline := 15000 }) [bread]])
    s.tu.a.grand = { GrandRow.clear with tickets := 1, items := 1, labels := 1, value := 500 } ∧ s.sc.tickets = [] := by
  decide +kernel

theorem test_response_read_releases :
    let s := after (.ctrTime [0#8, 0#8, 0#8, 9#8]) State.reset
    s.op.ready = true ∧ (after (.responseRead 4) s).op.spiOut = [130#8, 1#8, 0#8, 0#8]
      ∧ (after (.responseRead 4) s).op.ready = false ∧ (after (.responseRead 3) s).op.ready = true := by decide +kernel

theorem test_restart_notice_raises_irq :
    (after (.ctrRestart []) State.reset).op.irq = true
      ∧ (after (.ctrRestart []) State.reset).op.fifo = [{ kind := .restarted, time := 0, subjects := [1] }] := by decide +kernel

/-! ## The hypotheses of the statements, clause by clause -/

theorem test_met_EmptyQueueStep :
    let s := State.reset.setNow (2 ^ 48 - 2)
    s.pending = [] ∧ s.op.now + 1 < 2 ^ 48 := by decide +kernel

theorem test_met_EveryCommandFrame : ∃ t, exec .emptyTransaction State.reset = .next t := ⟨_, rfl⟩

/-- A full FIFO with a stored response, one posted ticket, the smallest and the greatest ticket number. -/
def busy : State :=
  let s := after (.printed 1 0 true)
    (shop .normal .fixed [ticket 5 3 (.printing { scale := 1, tag := 0, deadline := 15000 }) [bread]])
  { s with
    sc := { s.sc with tickets := [ticket 1 3 .held [], ticket 999 3 .held []] }
    op := { s.op with
      fifo := List.replicate 32 { kind := .rushOn, time := 0, subjects := [] }, overflow := true, irq := true, ready := true
      response := some { code := 145, result := .ok, clamped := false, body := [] } }
    pending := [.take] }

theorem test_met_PortInvariant : busy.op.sound := by
  unfold OfficePort.sound
  decide +kernel

theorem test_met_SettingsInvariant : busy.op.settings.sound := by
  unfold Settings.sound
  decide +kernel

theorem test_met_CapacityInvariant : busy.capacitySound := by
  refine ⟨fun a => ?_, by decide +kernel, by decide +kernel, by decide +kernel⟩
  have h : ∀ l : Tbl Station, (∀ e ∈ l, ordinary e.2.queue ≤ 8) → ordinary (Tbl.read Station.powerOn l a).queue ≤ 8 := by
    intro l
    induction l with
    | nil => intro _; exact Nat.zero_le 8
    | cons e l ih =>
      intro hl
      unfold Tbl.read
      split
      · exact hl e (by simp)
      · exact ih (fun x hx => hl x (by simp [hx]))
  exact h busy.lc.stations (by decide +kernel)

theorem test_met_TicketNumberInvariant : busy.numbersSound := by
  unfold State.numbersSound
  decide +kernel

theorem test_met_TotalsInvariant : busy.tu.sound := by
  unfold TotalsUnit.sound Bank.sound Bank.tablesSound Bank.agrees
  refine ⟨⟨by decide +kernel, fun _ => ?_⟩, ⟨by decide +kernel, fun _ => ?_⟩, fun _ => by decide +kernel⟩ <;>
    refine ⟨?_, ?_, ?_, ?_, ?_, ?_, ?_, ?_, ?_, ?_, ?_, ?_, ?_, ?_⟩ <;> decide +kernel

theorem test_met_TableInvariant : busy.tablesSound := by
  unfold State.tablesSound
  decide +kernel

theorem test_met_step : ∃ t, step busy = .next t := ⟨_, rfl⟩

theorem test_met_CharactersReadBack :
    (65535 < 256 ^ 2 ∧ 0 < 256 ^ 0) ∧ (0 < 3 ∧ -((256 ^ 3 : Nat) : Int) ≤ 2 * -8388608 ∧ 2 * 8388607 < ((256 ^ 3 : Nat) : Int))
      ∧ sendable (kindOf 1) (.samples [.ok (-8388608), .ok 8388607, .fault, .ok 0]) = true
      ∧ sendable (kindOf 16) (.purged (some 2048)) = true ∧ sendable (kindOf 17) .take = true
      ∧ sendable (kindOf 18) .nil = true := by decide +kernel

theorem test_met_HostRowIsTransaction :
    ((Instr.ntcAck []).wf = true ∧ (Instr.ntcAck []).hostFrame = some (145, []))
      ∧ (Instr.artCreate (List.replicate 255 0#8)).wf = true
      ∧ (Instr.artCreate (List.replicate 255 0#8)).hostFrame = some (16, List.replicate 255 0#8)
      ∧ Instr.ticketDirectory.hostFrame = some (64, [0#8, 0#8]) := by decide +kernel

theorem test_met_ResetHolds :
    (visiting State.reset 1 false none).op.resetLow = false ∧ (visiting State.reset 1 false none).lc.visit ≠ none
      ∧ (low State.reset).op.resetLow = true ∧ hostRow (.artRead []) = true ∧ hostRow .emptyTransaction = true := by
  decide +kernel

theorem test_met_ResetRises :
    (low State.reset).op.resetLow = true ∧ (low State.reset).tablesSound ∧ 10 ≤ 10 ∧ 9 < 10
      ∧ ∀ d, (low State.reset).due d = false := by
  refine ⟨rfl, ?_, by decide, by decide, fun d => by cases d <;> rfl⟩
  unfold State.tablesSound
  decide +kernel

theorem test_met_CommandRestarts :
    busy.op.resetLow = false ∧ busy.tablesSound ∧ [0#8] ≠ ([] : List Byte) ∧ (List.replicate 255 0#8).length ≤ 255 :=
  ⟨by decide +kernel, test_met_TableInvariant, by decide +kernel, by decide +kernel⟩

theorem test_met_ResponseRead :
    State.reset.op.resetLow = false ∧ State.reset.op.response = none
      ∧ busy.op.response = some { code := 145, result := .ok, clamped := false, body := [] }
      ∧ Response.chars { code := 145, result := .ok, clamped := false, body := [] } = [145#8, 1#8, 0#8, 0#8] := by
  decide +kernel

theorem test_met_FramesNotExecuted :
    frameSound [] = false ∧ frameSound [1#8, 0#8] = false ∧ frameSound [0#8, 1#8] = false
      ∧ frameSound (1#8 :: 0#8 :: List.replicate 256 0#8) = false ∧ (Instr.unknownCommand 1#8 []).wf = true
      ∧ (Instr.unknownCommand 255#8 (List.replicate 255 0#8)).wf = true := by decide +kernel

theorem test_met_HostReads :
    busy.op.resetLow = false ∧ (busy.ticketOf 1).isSome = true ∧ (busy.ticketOf 999).isSome = true
      ∧ busy.ticketOf 2 = none ∧ (busy.liveBank.rowChars 1 2048).isSome = true ∧ (busy.liveBank.rowChars 2 24).isSome = true
      ∧ (busy.liveBank.rowChars 3 16).isSome = true ∧ (busy.liveBank.rowChars 4 0).isSome = true
      ∧ ((busy.tu.bank (otherBank busy.tu.live)).rowChars 4 0).isSome = true ∧ busy.tu.frozen = false
      ∧ (after (.totClose []) busy).tu.frozen = true := by decide +kernel

/-- The CTR.SET body of the defaults with an increment. -/
def settingsBody (increment : Byte) : List Byte :=
  [4#8, 10#8, increment, 0#8, 120#8, 0#8, 45#8, 2#8, 88#8, 15#8, 8#8, 4#8, 0#8, 60#8, 0#8, 120#8, 8#8, 1#8, 1#8]

theorem test_met_CtrSetStores :
    (settingsBody 2#8).length = 19 ∧ ¬ (field (settingsBody 2#8) 3 1 = 1 ∨ field (settingsBody 2#8) 3 1 = 5
        ∨ field (settingsBody 2#8) 3 1 = 10)
      ∧ field (settingsBody 1#8) 3 1 = State.reset.op.settings.increment
      ∧ field (settingsBody 10#8) 3 1 ≠ State.reset.op.settings.increment ∧ field (settingsBody 10#8) 3 1 = 10
      ∧ settingsOf (settingsBody 1#8) = Settings.powerOn := by decide +kernel

theorem test_met_ClockMoves :
    State.reset.op.resetLow = false ∧ 4294967295 < 4294967296 ∧ State.reset.op.clockBase + 1000 < 2 ^ 48 := by
  decide +kernel

theorem test_met_NoticesKept :
    (State.reset.op.overflow = false ∧ State.reset.op.fifo.length < 32) ∧ (busy.op.overflow = true)
      ∧ ((after (.ntcAck []) busy).op.overflow = false ∧ (after (.ntcAck []) busy).op.fifo.length = 32) := by
  decide +kernel

theorem test_met_WrongRequestsRefused :
    (State.reset.hostCommand 16 []).2.result ≠ .ok ∧ fixedLength 128 = some 19 ∧ ¬ contentLaidOut []
      ∧ field [0#8, 0#8] 1 2 < 1 ∧ 2048 < field [8#8, 1#8] 1 2 ∧ field [0#8] 1 1 < 1 ∧ 18 < field [19#8] 1 1
      ∧ 24 < field [25#8] 1 1 ∧ 999 < field [3#8, 232#8] 1 2 := by
  unfold contentLaidOut
  decide +kernel

/-- A body of ART.CREATE or ART.CHANGE of article 7. -/
def contentBody (mode : Byte) : List Byte := [0#8, 7#8, mode, 0#8, 1#8, 244#8, 0#8, 0#8, 0#8, 1#8, 66#8]

theorem test_met_ArtCreateStores :
    contentLaidOut (contentBody 3#8) ∧ contentLaidOut (contentBody 0#8) ∧ contentInRange (contentBody 3#8)
      ∧ ¬ contentInRange (contentBody 0#8) ∧ (State.reset.article 7).state = .empty
      ∧ Tbl.read ArticleRow.clear State.reset.liveBank.articles 7 = ArticleRow.clear
      ∧ Tbl.read ArticleRow.clear busy.liveBank.articles 7 ≠ ArticleRow.clear
      ∧ ((busy.setArticle 7 Article.powerOn).article 7).state = .empty
      ∧ ((shop .normal .fixed []).article 7).state ≠ .empty := by
  unfold contentLaidOut contentInRange
  decide +kernel

def withArticle (state : ArticleState) : State :=
  (shop .normal .fixed []).setArticle 7 { (shop .normal .fixed []).article 7 with state := state }

theorem test_met_ArticleChangesOpen :
    contentLaidOut (contentBody 3#8) ∧ contentInRange (contentBody 3#8) ∧ ¬ contentInRange (contentBody 0#8)
      ∧ ((withArticle .live).article 7).state = .live ∧ (withArticle .live).changeOf 7 = none
      ∧ ((withArticle .changing).article 7).state = .changing ∧ ((withArticle .retiring).article 7).state = .retiring
      ∧ (State.reset.article 7).state = .empty ∧ field [0#8, 1#8] 1 2 = 1 ∧ field [8#8, 0#8] 1 2 = 2048 := by
  unfold contentLaidOut contentInRange
  decide +kernel

def withLock (boundary : Nat) (s : State) : State :=
  { s with op := { s.op with settings := { s.op.settings with priceLock := boundary } } }

def withoutFlag (s : State) : State := s.setClerk 3 { s.clerk 3 with supervisor := false }

theorem test_met_OverrideChangesPrice :
    (shop .proof .fixed []).takes 1 ∧ ((shop .proof .fixed []).station 1).state = .proof
      ∧ (unmanned (shop .normal .fixed [])).takes 1 ∧ (unmanned (shop .normal .fixed [])).clerkAt 1 = none
      ∧ (withArticle .live).takes 1 ∧ (withArticle .live).mans 1 3 ∧ ((withArticle .live).clerk 3).supervisor = true
      ∧ ((withoutFlag (withArticle .live)).clerk 3).supervisor = false ∧ (withoutFlag (withArticle .live)).mans 1 3
      ∧ ((withArticle .live).article 7).content = some (goods .fixed) ∧ (withArticle .live).changeOf 7 = none
      ∧ (withArticle .live).op.settings.priceLock = 2049 ∧ (withLock 7 (withArticle .live)).op.settings.priceLock ≤ 7
      ∧ (withLock 7 (withArticle .live)).mans 1 3 ∧ (withArticle .changing).mans 1 3 ∧ (withArticle .retiring).mans 1 3 := by
  refine ⟨takes_of ?_, ?_, takes_of ?_, ?_, takes_of ?_, mans_of ?_ ?_, ?_, ?_, mans_of ?_ ?_, ?_, ?_, ?_, ?_, mans_of ?_ ?_,
    mans_of ?_ ?_, mans_of ?_ ?_⟩ <;> decide +kernel

/-- A body of STN.CONFIG of scale 1 with the default of R26, but for the split. -/
def configBody (hi lo : Byte) : List Byte :=
  [1#8, 58#8, 152#8, hi, lo, 2#8, 5#8, 2#8, 10#8, 3#8, 0#8, 20#8, 11#8, 184#8, 1#8]

theorem test_met_ConfigurationsStored :
    ((configBody 23#8 112#8).length = 15 ∧ configSound (configOf (configBody 23#8 112#8)) = true)
      ∧ configSound (configOf (configBody 0#8 0#8)) = true ∧ configSound (configOf (configBody 58#8 152#8)) = false
      ∧ (State.reset.station 1).state = .off ∧ ((shop .normal .fixed []).station 1).state ≠ .off
      ∧ watchOf [2#8, 1#8, 3#8, 1#8, 0#8, 7#8, 24#8, 0#8, 0#8, 0#8, 3#8, 1#8] ≠ none
      ∧ watchOf [1#8, 1#8, 3#8, 4#8, 0#8, 0#8, 0#8, 0#8, 0#8, 0#8, 1#8, 0#8] ≠ none
      ∧ watchOf [1#8, 1#8, 3#8, 4#8, 0#8, 0#8, 0#8, 0#8, 0#8, 0#8, 1#8, 1#8] = none := by decide +kernel

theorem test_met_StnModeMoves :
    State.reset.op.resetLow = false ∧ modeCode .off = 1 ∧ modeCode .normal = 2 ∧ modeCode .detached = 3 ∧ modeCode .proof = 4
      ∧ ([StationState.off, .absent, .joining, .normal, .detached, .proof].all
          (fun x => decide (((State.reset.setStation 16 { Station.powerOn with state := x }).station 16).state = x))) = true := by
  decide +kernel

theorem test_met_ClerksMove :
    let s := shop .normal .fixed []
    (s.takes 1 ∧ (s.clerk 24).enrolled = false ∧ (s.clerk 3).enrolled = true ∧ s.clerkAt 1 = some 3)
      ∧ ((s.setClerk 4 { Clerk.powerOn with enrolled := true }).takes 1
        ∧ ((s.setClerk 4 { Clerk.powerOn with enrolled := true }).clerk 4).enrolled = true
        ∧ (s.setClerk 4 { Clerk.powerOn with enrolled := true }).clerkAt 1 ≠ some 4)
      ∧ (unmanned s).clerkAt 1 = none ∧ (∀ k ∈ s.sc.tickets, k.clerk ≠ 3)
      ∧ ∃ k ∈ (shop .normal .fixed [ticket 5 3 .held []]).sc.tickets, k.clerk = 3 := by
  refine ⟨⟨takes_of ?_, ?_, ?_, ?_⟩, ⟨takes_of ?_, ?_, ?_⟩, ?_, ?_, ?_⟩ <;> decide +kernel

/-- An empty OPEN ticket with queue number 9. -/
def called : Ticket := { ticket 5 3 (.opened 120000) [] with queueNumber := some 9 }

theorem test_met_TicketsLeave :
    (shop .normal .fixed [called]).takes 1 ∧ (shop .normal .fixed [called]).mans 1 3
      ∧ (shop .normal .fixed [called]).activeOf 3 = some called
      ∧ (shop .normal .fixed [ticket 999 3 .held [bread]]).activeOf 3 = some (ticket 999 3 .held [bread])
      ∧ (shop .normal .fixed [ticket 1 3 .printWait [bread]]).activeOf 3 = some (ticket 1 3 .printWait [bread])
      ∧ (shop .normal .fixed [ticket 1 3 (.parked 600000) [bread]]).ticketOf 1 = some (ticket 1 3 (.parked 600000) [bread])
      ∧ (shop .normal .fixed [ticket 1 3 (.printing { scale := 1, tag := 0, deadline := 15000 }) [bread]]).ticketOf 1 =
        some (ticket 1 3 (.printing { scale := 1, tag := 0, deadline := 15000 }) [bread]) := by
  refine ⟨takes_of ?_, mans_of ?_ ?_, ?_, ?_, ?_, ?_, ?_⟩ <;> decide +kernel

theorem test_met_TicketsReleased :
    (shop .normal .fixed [ticket 1 3 .held []]).ticketOf 1 = some (ticket 1 3 .held [])
      ∧ (shop .normal .fixed [ticket 999 3 .printWait []]).ticketOf 999 = some (ticket 999 3 .printWait [])
      ∧ (shop .normal .fixed [ticket 1 3 .held []]).takes 1 ∧ (shop .normal .fixed [ticket 1 3 .held []]).mans 1 3
      ∧ (withoutFlag (shop .normal .fixed [ticket 1 3 .held []])).takes 1
      ∧ (withoutFlag (shop .normal .fixed [ticket 1 3 .held []])).mans 1 3
      ∧ ((withoutFlag (shop .normal .fixed [ticket 1 3 .held []])).clerk 3).supervisor = false := by
  refine ⟨?_, ?_, takes_of ?_, mans_of ?_ ?_, takes_of ?_, mans_of ?_ ?_, ?_⟩ <;> decide +kernel

theorem test_met_PeriodsCloseAndClear :
    State.reset.op.resetLow = false ∧ State.reset.tu.frozen = false ∧ State.reset.liveBank.period ≤ 65535
      ∧ (after (.totClose []) State.reset).tu.frozen = true := by decide +kernel

def atStation (f : Station → Station) : State := State.reset.setStation 1 (f { Station.powerOn with state := .normal })

theorem test_met_VisitsEnd :
    let s (m n : Nat) := atStation (fun st => { st with miss := m, score := n })
    ((visiting (s 0 0) 1 false none).lc.visit = some { station := 1, probe := false, frame := [], window := none })
      ∧ (visiting (s 1 0) 1 false (some 4)).lc.visit = some { station := 1, probe := false, frame := [], window := some 4 }
      ∧ ((visiting (s 1 0) 1 false (some 4)).station 1).miss < 2 ∧ 2 ≤ ((visiting (s 2 0) 1 false (some 4)).station 1).miss
      ∧ ((s 0 27).station 1).score < 28 ∧ 32 ≤ ((s 0 32).station 1).score ∧ State.reset.lc.visit = none := by
  decide +kernel

theorem test_met_ScoreDetaches :
    (∀ n ∈ [28, 31], isScale 1 = true ∧ ((atStation (fun st => { st with score := n })).station 1).detachedFlag = false
      ∧ 28 ≤ ((atStation (fun st => { st with score := n })).station 1).score
      ∧ ((atStation (fun st => { st with score := n })).station 1).score < 32)
      ∧ ((atStation (fun st => { st with score := 31, state := .proof })).station 1).state ≠ .normal
      ∧ State.reset.op.overflow = false := by decide +kernel

theorem test_met_RepliesJoin :
    (visiting State.reset 5 true none).lc.visit = some { station := 5, probe := true, frame := [], window := none }
      ∧ parseReply 5 (replyChars 5 { uSeq := false, dAck := false, hold := false, msg := .nil }) =
        some { uSeq := false, dAck := false, hold := false, msg := .nil }
      ∧ ((atStation (fun st => { st with
          state := .joining, queue := [{ msg := .setmode .normal true none, sent := true }] })).station 1).queue =
        [{ msg := .setmode .normal true none, sent := true }] := by decide +kernel

theorem test_met_RepliesActAsRows :
    (sendable (kindOf 1) (.action .zero) = true ∧ messageRow 1 (.action .zero) = some (.zero 1))
      ∧ (sendable (kindOf 17) .take = true ∧ messageRow 17 .take = some .take)
      ∧ (visiting (shop .normal .fixed []) 1 false none).lc.visit =
        some { station := 1, probe := false, frame := [], window := none }
      ∧ parseReply 1 (replyChars 1 { uSeq := true, dAck := false, hold := false, msg := .action .zero }) =
        some { uSeq := true, dAck := false, hold := false, msg := .action .zero }
      ∧ ((shop .normal .fixed []).station 1).lastU = false
      ∧ ((atStation (fun st => { st with queue := [{ msg := .purge 7, sent := true }] })).station 1).queue =
        [{ msg := .purge 7, sent := true }] := by decide +kernel

theorem test_met_MessagesNotTaken :
    State.reset.inService 18 = false
      ∧ (atStation (fun st => { st with queue := List.replicate 6 { msg := .purge 7, sent := false } })).admits 1 = false
      ∧ (shop .normal .fixed []).takes 1 := by
  refine ⟨?_, ?_, takes_of ?_⟩ <;> decide +kernel

theorem test_met_SamplesJudge :
    (shop .normal .fixed []).hears 1 ∧ [Reading.fault].length = 1 ∧ (List.replicate 4 Reading.fault).length = 4
      ∧ Channel.powerOn.window.length + 1 < 2 ^ Channel.powerOn.config.k
      ∧ 2 ^ Channel.powerOn.config.k ≤ { Channel.powerOn with window := [0, 0, 0] }.window.length + 1 :=
  ⟨(takes_of (by decide +kernel)).1, by decide +kernel, by decide +kernel, by decide +kernel, by decide +kernel⟩

/-- A scale on which a load rests: filter output f, gross G. -/
def loaded (f gross : Int) (tare : Tare) : State :=
  let s := shop .normal .byCount []
  s.setChannel 1 { s.channel 1 with
    motion := .stable, tare := tare, result := some { f := f, fine := f, gross := gross } }

theorem test_met_WeighingActionsAct :
    ((loaded 3000 300 .noTare).takes 1 ∧ ((loaded 3000 300 .noTare).channel 1).motion = .stable
      ∧ ((loaded 3000 300 .noTare).channel 1).config.max / 5 = 3000
      ∧ weightState ((loaded 30000 3000 .noTare).channel 1) ≠ .overload
      ∧ ((loaded 30000 3000 .noTare).channel 1).config.tareLimit = 3000)
      ∧ ((loaded 3001 300 (.weighed 5)).channel 1).tare ≠ .noTare
      ∧ ((shop .normal .fixed []).channel 1).motion ≠ .stable
      ∧ ((loaded 0 0 (.keyed 5)).channel 1).tare = .keyed 5 ∧ ((loaded 0 0 (.preset 5)).channel 1).tare = .preset 5
      ∧ ((loaded 0 0 .noTare).channel 1).ctx.pin = some (pinOf .byCount) ∧ (pinOf .byCount).content.mode = .byCount
      ∧ ((shop .normal .fixed []).channel 1).ctx.pin = some (pinOf .fixed) := by
  refine ⟨⟨takes_of ?_, ?_, ?_, ?_, ?_⟩, ?_, ?_, ?_, ?_, ?_, ?_, ?_⟩ <;> decide +kernel

theorem test_met_VerdictsPrice :
    Channel.powerOn.ctx.pin = none ∧ weightState Channel.powerOn = .filling
      ∧ weightState ((loaded 3000 300 .noTare).channel 1) = .stable
      ∧ (pricedChannel .fixed none).ctx.pin = some (pinOf .fixed) ∧ (pricedChannel .byCount none).ctx.quantity = some 1
      ∧ (pricedChannel .byWeight none).ctx.pin = some (pinOf .byWeight)
      ∧ (formVerdict (pricedChannel .byWeight none) 1 false).net = none
      ∧ (∀ g ∈ [39, 40], (formVerdict { pricedChannel .byWeight none with
          motion := .stable, result := some { f := 10 * g, fine := 10 * g, gross := g } } 1 false).net = some g) := by
  decide +kernel

theorem test_met_SelectPins :
    (unmanned (shop .normal .fixed [])).takes 1 ∧ (shop .normal .fixed []).takes 1 ∧ (shop .normal .fixed []).clerkAt 1 = some 3
      ∧ ((shop .normal .fixed []).article 7).state = .live ∧ ((shop .normal .fixed []).article 2048).state = .empty
      ∧ ((shop .normal .fixed []).article 7).content = some (goods .fixed)
      ∧ (goods .fixed).tare ≤ ((shop .normal .fixed []).channel 1).config.tareLimit
      ∧ copyOf ((shop .normal .fixed []).copyMap 1) 7 = none ∧ (shop .normal .fixed []).changeOf 7 = none
      ∧ ((shop .normal .fixed []).station 1).backlog ≠ .all
      ∧ copyOf (holding.copyMap 1) 7 = some { article := 7, revision := 0, purging := true }
      ∧ ((shop .detached .fixed []).station 1).state ≠ .normal ∧ (shop .detached .fixed []).takes 1 := by
  refine ⟨takes_of ?_, takes_of ?_, ?_, ?_, ?_, ?_, ?_, ?_, ?_, ?_, ?_, ?_, takes_of ?_⟩ <;> decide +kernel

theorem test_met_SelectPins_refused :
    let s := (shop .normal .fixed []).setArticle 7
      { (shop .normal .fixed []).article 7 with content := some { goods .fixed with tare := 3001 } }
    (s.channel 1).config.tareLimit < 3001 ∧ (s.channel 1).tare = .noTare ∧ s.takes 1 := by
  refine ⟨?_, ?_, takes_of ?_⟩ <;> decide +kernel

theorem test_met_ClearAndPurged :
    (shop .normal .fixed []).takes 1 ∧ ((shop .normal .fixed []).channel 1).ctx.pin = some (pinOf .fixed) ∧ holding.hears 1
      ∧ (street.setStation 1 { Station.powerOn with state := .proof }).takes 1
      ∧ ((street.setStation 1 { Station.powerOn with state := .proof }).channel 1).ctx.pin = none
      ∧ copyOf (holding.copyMap 1) 7 = some { article := 7, revision := 0, purging := true } ∧ copyOf (holding.copyMap 1) 8 = none := by
  refine ⟨takes_of ?_, ?_, (takes_of (s := holding) (a := 1) ?_).1, takes_of ?_, ?_, ?_, ?_⟩ <;> decide +kernel

theorem test_met_SettleTimeoutForces :
    holding.op.resetLow = false
      ∧ holding.changeOf 7 = some { article := 7, kind := .change, oldRevision := 0, deadline := 10000 }
      ∧ (holding.article 7).holders = [1]
      ∧ (holding.setChannel 1 { holding.channel 1 with ctx := { (holding.channel 1).ctx with
          pin := some { pinOf .fixed with revision := 0 } } }).oldPins
        { article := 7, kind := .change, oldRevision := 0, deadline := 10000 } = [1] := by decide +kernel

theorem test_met_TicketsOpenAndSwitch :
    (shop .proof .fixed []).takes 1 ∧ (shop .proof .fixed []).clerkAt 1 = some 3
      ∧ (unmanned (shop .normal .fixed [])).clerkAt 1 = none ∧ (shop .normal .fixed []).mans 1 3
      ∧ (shop .normal .fixed [called]).mans 1 3 ∧ (shop .normal .fixed full).mans 1 3 ∧ 64 ≤ (shop .normal .fixed full).sc.tickets.length
      ∧ (shop .normal .fixed [ticket 6 3 (.parked 5) []]).ticketOf 6 = some (ticket 6 3 (.parked 5) [])
      ∧ (shop .normal .fixed [called, ticket 6 3 (.parked 5) []]).ticketOf 6 = some (ticket 6 3 (.parked 5) [])
      ∧ (shop .normal .fixed [ticket 6 3 .printWait []]).ticketOf 6 = some (ticket 6 3 .printWait [])
      ∧ (shop .normal .fixed full).ticketOf 64 = some (ticket 64 4 .held []) ∧ (shop .normal .fixed []).ticketOf 0 = none := by
  refine ⟨takes_of ?_, ?_, ?_, mans_of ?_ ?_, mans_of ?_ ?_, mans_of ?_ ?_, ?_, ?_, ?_, ?_, ?_, ?_⟩ <;> decide +kernel

theorem test_met_VerdictsAllowItems :
    Verdict.powerOn.pin = none ∧ (pricedChannel .fixed none).verdict.pin = some (pinView (pinOf .fixed))
      ∧ (pricedChannel .byWeight none).verdict.weight = .filling ∧ (pricedChannel .fixed none).verdict.priceState = .priced := by
  decide +kernel

def watched (act : WatchAction) (s : State) : State :=
  { s with wu := { s.wu with a := { WatchChannel.powerOn with enable := true, onAdd := true, onVoid := true, action := act } } }

theorem test_met_AddPlacesItem :
    let s := shop .normal .fixed [called]
    (s.takes 1 ∧ s.clerkAt 1 = some 3 ∧ s.activeOf 3 = some called ∧ (s.channel 1).stamp = 1
      ∧ verdictRefused (s.channel 1).verdict = none ∧ (s.channel 1).ctx.pin = some (pinOf .fixed))
      ∧ (watchResult (watched .block s).wu .add 7 500 3 false).outcome = some .block
      ∧ (watchResult (watched .hold s).wu .add 7 500 3 false).outcome = some .hold
      ∧ (watchResult s.wu .add 7 500 3 false).outcome = none
      ∧ 24 ≤ (ticket 5 3 (.opened 120000) (List.replicate 24 bread)).items.length
      ∧ verdictRefused ((shop .normal .byWeight [called]).channel 1).verdict = some .motion
      ∧ (shop .normal .fixed [ticket 5 3 .held []]).activeOf 3 = some (ticket 5 3 .held [])
      ∧ (shop .normal .fixed [ticket 5 3 .printWait []]).activeOf 3 = some (ticket 5 3 .printWait [])
      ∧ (shop .normal .fixed []).activeOf 3 = none ∧ (shop .proof .fixed [called]).activeOf 3 = some called := by
  refine ⟨⟨takes_of ?_, ?_, ?_, ?_, ?_, ?_⟩, ?_, ?_, ?_, ?_, ?_, ?_, ?_, ?_, ?_⟩ <;> decide +kernel

theorem test_met_VoidItemVoids :
    let s := shop .normal .fixed [ticket 5 3 .held [bread, { bread with voided := true }]]
    s.takes 1 ∧ s.clerkAt 1 = some 3 ∧ s.activeOf 3 = some (ticket 5 3 .held [bread, { bread with voided := true }])
      ∧ (ticket 5 3 .held [bread, { bread with voided := true }]).items[1 - 1]? = some bread
      ∧ (ticket 5 3 .held [bread, { bread with voided := true }]).items[2 - 1]? = some { bread with voided := true }
      ∧ (ticket 5 3 .held [bread, { bread with voided := true }]).items[3 - 1]? = none
      ∧ (watchResult (watched .block s).wu .void 7 500 3 false).outcome = some .block
      ∧ (watchResult (watched .hold s).wu .void 7 500 3 false).outcome = some .hold := by
  refine ⟨takes_of ?_, ?_, ?_, ?_, ?_, ?_, ?_, ?_⟩ <;> decide +kernel

theorem test_met_WatchesMatch :
    (watchResult (watched .hold State.reset).wu .label 7 0 3 false).a = some .note
      ∧ (watchResult (watched .hold State.reset).wu .add 7 0 3 false).a = some .hold
      ∧ (let wu : WatchUnit := { a := (watched .block State.reset).wu.a
                                 b := { (watched .block State.reset).wu.a with sequential := true, action := .hold } }
         watchResult wu .add 7 0 3 true = { a := some .note, b := some .hold }
           ∧ watchResult wu .add 7 0 3 false = { a := some .note, b := none }) := by decide +kernel

theorem test_met_CloseStartsJob :
    let s := shop .normal .fixed [ticket 5 3 (.opened 120000) [bread]]
    (s.takes 1 ∧ s.mans 1 3 ∧ s.activeOf 3 = some (ticket 5 3 (.opened 120000) [bread])
      ∧ (ticket 5 3 (.opened 120000) [bread]).items.filter (fun i => !i.voided) ≠ [])
      ∧ (shop .normal .fixed [called]).activeOf 3 = some called ∧ called.items.filter (fun i => !i.voided) = []
      ∧ (shop .normal .fixed [ticket 5 3 .printWait [bread]]).activeOf 3 = some (ticket 5 3 .printWait [bread])
      ∧ (shop .proof .fixed [called]).takes 1 ∧ ((shop .proof .fixed [called]).station 1).state = .proof := by
  refine ⟨⟨takes_of ?_, mans_of ?_ ?_, ?_, ?_⟩, ?_, ?_, ?_, takes_of ?_, ?_⟩ <;> decide +kernel

theorem test_met_JobTagsAreFree : (shop .normal .fixed full).sc.tickets.length ≤ 64 := by decide +kernel

theorem test_met_LabelPrints :
    let s := shop .normal .fixed []
    (s.takes 1 ∧ s.clerkAt 1 = some 3 ∧ (s.channel 1).stamp = 1 ∧ verdictRefused (s.channel 1).verdict = none
      ∧ (s.channel 1).ctx.pin = some (pinOf .fixed) ∧ s.sc.tickets.length < 64)
      ∧ 64 ≤ (shop .normal .fixed full).sc.tickets.length ∧ (shop .proof .fixed []).takes 1
      ∧ (watchResult (watched .block s).wu .label 7 500 3 false).outcome = some .block
      ∧ (watchResult s.wu .label 7 500 3 false).outcome ≠ some .block := by
  refine ⟨⟨takes_of ?_, ?_, ?_, ?_, ?_, ?_⟩, ?_, takes_of ?_, ?_, ?_⟩ <;> decide +kernel

theorem test_met_PrintJobsEnd :
    let k := ticket 5 3 (.printing { scale := 1, tag := 255, deadline := 15000 }) [bread]
    let s := shop .normal .fixed [k]
    s.hears 1 ∧ s.jobOf 1 255 = some k ∧ s.jobOf 1 0 = none ∧ s.ticketOf 5 = some k
      ∧ ((s.setPrintRecord 1 { PrintRecord.powerOn with lastProof := some 0 }).printRecord 1).lastProof = some 0
      ∧ (s.printRecord 1).lastProof ≠ some 0 := by
  refine ⟨(takes_of (s := shop .normal .fixed [_]) (a := 1) ?_).1, ?_, ?_, ?_, ?_, ?_⟩ <;> decide +kernel

def waitingFor (l : List Nat) (s : State) : State := { s with qc := { s.qc with waiting := l } }

theorem test_met_QueueIssuesNumbers :
    street.inService 17 = true ∧ street.op.resetLow = false ∧ street.admits 17 = true
      ∧ (waitingFor (List.range 64) street).qc.waiting.length = 64
      ∧ ((waitingFor (List.range 63) street).setTickets ((List.range 37).map (fun i =>
          { ticket (i + 1) 3 .held [] with queueNumber := some (i + 63) }))).freeQueueNumber = none
      ∧ (waitingFor [1] street).freeQueueNumber = some 2 := by decide +kernel

theorem test_met_NextCallsOldest :
    (waitingFor [9] (shop .normal .fixed [])).takes 1 ∧ (waitingFor [9] (shop .normal .fixed [])).mans 1 3
      ∧ (waitingFor [9] (shop .normal .fixed [])).atLimit 3 = false
      ∧ (waitingFor [9] (shop .normal .fixed [called])).atLimit 3 = true ∧ (shop .normal .fixed full).atLimit 3 = false
      ∧ (shop .normal .fixed []).qc.waiting = [] ∧ (waitingFor [9] (shop .normal .fixed [])).qc.waiting = [9]
      ∧ (shop .normal .fixed []).qc.level = .normal := by
  refine ⟨takes_of ?_, mans_of ?_ ?_, ?_, ?_, ?_, ?_, ?_, ?_⟩ <;> decide +kernel

theorem test_met_RecallShowsNumber :
    (shop .normal .fixed [called]).takes 1 ∧ (shop .normal .fixed [called]).mans 1 3
      ∧ (shop .normal .fixed [called]).activeOf 3 = some called ∧ called.queueNumber = some 9
      ∧ (shop .normal .fixed []).activeOf 3 = none ∧ (unmanned (shop .normal .fixed [])).clerkAt 1 = none
      ∧ ((shop .proof .fixed [called]).station 1).state = .proof := by
  refine ⟨takes_of ?_, mans_of ?_ ?_, ?_, ?_, ?_, ?_, ?_⟩ <;> decide +kernel

theorem test_met_DeadlinesExpire :
    (shop .normal .fixed [called]).op.resetLow = false ∧ (shop .normal .fixed [called]).ticketOf 5 = some called
      ∧ State.reset.qc.residencyPending = true ∧ State.reset.qc.waiting.length < State.reset.op.settings.rushThreshold
      ∧ State.reset.op.settings.rushThreshold ≤ (waitingFor [1, 2, 3, 4, 5, 6, 7, 8] State.reset).qc.waiting.length := by
  decide +kernel

/-! ## Further clauses at the values where they meet -/

/-- Entries that count as ordinary. -/
def notes (n : Nat) : List Entry := List.replicate n { msg := .purge 9, sent := true }

def fillOf (n : Nat) : Entry := { msg := .fill { pinOf .fixed with number := n }, sent := false }

def printOf (tag : Nat) : Entry := { msg := .print (.total tag 5 none 3 1 500 0 1), sent := false }

/-- An ACTION of a code that is not in the table may fill the frame (R5, R22). -/
theorem test_met_CharactersReadBack_unknownAction :
    isScale 16 = true ∧ (∀ c ∈ [0, 22, 255], c < 256 ∧ (c = 0 ∨ 21 < c)) ∧ (List.replicate 119 7#8).length ≤ 119
      ∧ parseReply 16 (frame 16 18 (flagsChar false true false) (chars 1 22 ++ [7#8, 8#8, 9#8])) =
        some { uSeq := false, dAck := true, hold := false, msg := .action (.unknown 22) } := by decide +kernel

/-- OFF of a polled scale, and a move between two in-service states, from NORMAL with a copy and from DETACHED. -/
theorem test_met_StnModeMoves_serving :
    polled ((shop .normal .fixed []).station 1).state = true ∧ polled ((shop .joining .fixed []).station 1).state = true
      ∧ holding.inService 1 = true ∧ (holding.station 1).state = .normal
      ∧ ((after (.stnMode [1#8, 4#8]) holding).station 1).state = .proof
      ∧ ((after (.stnMode [1#8, 4#8]) holding).station 1).queue.map (·.msg) =
        [.setmode .proof false (holding.layoutOf 1), .purgeAll,
          .verdict 1 2 ((after (.stnMode [1#8, 4#8]) holding).channel 1).verdict]
      ∧ (shop .detached .fixed []).inService 1 = true
      ∧ ((after (.stnMode [1#8, 2#8]) (shop .detached .fixed [])).station 1).state = .normal := by decide +kernel

theorem test_met_TicketsLeave_refused :
    (unmanned (shop .normal .fixed [])).takes 1 ∧ (unmanned (shop .normal .fixed [])).clerkAt 1 = none
      ∧ (shop .normal .fixed []).takes 1 ∧ (shop .normal .fixed []).clerkAt 1 = some 3
      ∧ (shop .normal .fixed []).activeOf 3 = none ∧ openOrHeld (ticket 1 3 .printWait []) = false
      ∧ (shop .proof .fixed [called]).takes 1 ∧ (shop .proof .fixed [called]).activeOf 3 = some called
      ∧ openOrHeld called = true ∧ ((shop .proof .fixed [called]).station 1).state = .proof
      ∧ ({ called with items := [bread] }).items ≠ [] ∧ ({ called with queueNumber := none }).queueNumber = none := by
  refine ⟨takes_of ?_, ?_, takes_of ?_, ?_, ?_, ?_, takes_of ?_, ?_, ?_, ?_, ?_, ?_⟩ <;> decide +kernel

/-- A live bank whose grand row and row of clerk 3 stand one ticket below their maximum or at it. -/
def counted (grand clerk : Nat) (saturated : Bool) : State :=
  { State.reset with tu := { State.reset.tu with a := { State.reset.tu.a with
      grand := { GrandRow.clear with tickets := grand }, clerks := [(3, { ClerkRow.clear with tickets := clerk })]
      saturated := saturated } } }

/-- The first row held, in the order of R177: clerk 3 before the grand row; with the mark set there is no notice. -/
theorem test_met_PeriodsCloseAndClear_saturated :
    let k := ticket 5 3 .held [bread]
    let top := 4294967295
    (postingGains k 1).heldAt (counted top top false).liveBank 2 3
      ∧ (postingGains k 1).heldAt (counted top top false).liveBank 4 0
      ∧ (counted top top false).liveBank.saturated = false ∧ (counted top top true).liveBank.saturated = true
      ∧ ((counted top top false).post k 1).op.fifo.map (·.subjects) = [[1, 1, 1, 5, 2, 3]]
      ∧ ((counted top top true).post k 1).op.fifo = [] ∧ ((counted (top - 1) 0 false).post k 1).op.fifo = []
      ∧ holds top (top - 1) 1 = false ∧ holds top top 1 = true := by
  refine ⟨.inr (.inl ⟨rfl, _, rfl, by decide +kernel⟩), .inr (.inr (.inr ⟨rfl, rfl, by decide +kernel⟩)), ?_⟩
  decide +kernel

/-- The third miss, in service at a scale and at the dispenser, and while JOINING; a reply that fails its check. -/
theorem test_met_VisitsEnd_left :
    let s := shop .normal .fixed []
    let missed := s.setStation 1 { s.station 1 with miss := 2 }
    let t := after .replyWindowExpiry (visiting missed 1 false (some 4))
    ((visiting missed 1 false (some 4)).inService 1 = true ∧ t.op.fifo.map (·.kind) = [.stationDown]
      ∧ t.clerk 3 = { enrolled := true, supervisor := true, scale := none, active := none })
      ∧ (State.inService (visiting (atStation (fun st => { st with state := .joining, miss := 2 })) 1 false (some 4)) 1
        = false)
      ∧ (visiting street 17 false (some 4)).lc.visit = some { station := 17, probe := false, frame := [], window := some 4 }
      ∧ parseReply 1 [1#8, 16#8, 0#8, 0#8, 0#8, 0#8] = none ∧ parseReply 1 [] = none ∧ parseReply 1 [2#8] = none
      ∧ parseReply 17 (frame 17 17 0#8 []) = none ∧ (frame 17 17 0#8 [])[1]? = some 17#8
      ∧ parseReply 17 (frame 17 21 0#8 []) ≠ none
      ∧ 120 < (BitVec.toNat (121#8 : Byte)) ∧ parseReply 1 (frame 1 18 0#8 (List.replicate 121 0#8)) = none := by
  decide +kernel

/-- The in-service SETMODE rewritten, behind a sent head, and at the front; PURGE "all" with 8, 7 and 6 entries left. -/
theorem test_met_ScoreDetaches_queues :
    let mode : Entry := { msg := .setmode .proof false none, sent := false }
    let head : Entry := { msg := .purge 9, sent := true }
    let s (q : List Entry) (owed : Bool) := atStation (fun st => { st with queue := q, showOwed := owed })
    unsent isSetmode mode = true ∧ (∀ x ∈ [head], unsent isSetmode x = false)
      ∧ (((s [head, mode, head] false).offerSetmode 1).station 1).queue.map (·.msg) =
        [.purge 9, .setmode .normal false ((s [] false).layoutOf 1), .purge 9]
      ∧ (s [] false).inService 1 = true ∧ (State.reset.inService 1 = false)
      ∧ ordinary ((notes 8 ++ [fillOf 7]).filter (fun e => e.sent || !(isFill e.msg || isPurge e.msg))) = 8
      ∧ (((s (notes 8 ++ [fillOf 7]) true).offerPurgeAll 1).station 1).backlog = .all
      ∧ (((s (notes 7) true).offerPurgeAll 1).station 1).showOwed = true
      ∧ (((s (notes 7) true).offerPurgeAll 1).station 1).queue.length = 8
      ∧ (((s (notes 6) true).offerPurgeAll 1).station 1).showOwed = false
      ∧ (((s (notes 6) true).offerPurgeAll 1).station 1).queue.length = 8 := by decide +kernel

/-- The join SETMODE acknowledged by a reply; the eighth slot probes; a slot with a hold-off sends NIL. -/
theorem test_met_RepliesJoin_slots :
    let mode : Entry := { msg := .setmode .normal true none, sent := true }
    let join := atStation (fun st => { st with state := .joining, queue := [mode], dSeq := true })
    let l := replyChars 1 { uSeq := false, dAck := true, hold := true, msg := .nil }
    let s := (atStation (fun st => { st with queue := [{ msg := .purge 9, sent := false }] })).setStation 18
      { Station.powerOn with mode := .normal, state := .absent }
    let slot (n : Nat) (t : State) : State := { t with lc := { t.lc with slotCount := n } }
    (parseReply 1 l = some { uSeq := false, dAck := true, hold := true, msg := .nil }
      ∧ (visiting join 1 false none).lc.visit = some { station := 1, probe := false, frame := [], window := none }
      ∧ serving .normal = true ∧ ((after (.replyFrame l) (visiting join 1 false none)).station 1).state = .normal)
      ∧ State.reset.lc.visit = none ∧ State.reset.op.resetLow = false ∧ State.reset.nextSlot = State.reset
      ∧ ((slot 7 s).nextSlot.lc.visit).map (fun v => (v.station, v.probe)) = some (1, false)
      ∧ ((slot 8 s).nextSlot.lc.visit).map (fun v => (v.station, v.probe)) = some (18, true)
      ∧ (((slot 7 s).nextSlot.station 1).queue.map (·.sent)) = [true]
      ∧ (((slot 7 (s.setStation 1 { s.station 1 with holdOff := true })).nextSlot.station 1).queue.map (·.sent)) = [false]
      ∧ ((slot 8 (atStation (fun st => st))).nextSlot.lc.visit).map (fun v => (v.station, v.probe)) = some (1, false) := by
  decide +kernel

/-- What refills a freed entry: nothing, PURGE "all", the first of the backlog, the SHOW owed. -/
theorem test_met_RepliesActAsRows_refill :
    let s (b : Backlog) (owed : Bool) := atStation (fun st =>
      { st with queue := notes 8, backlog := b, showOwed := owed })
    let t (b : Backlog) (owed : Bool) := ((s b owed).acknowledge 1 false).station 1
    ordinary ((notes 8).drop 1) < 8 ∧ (t (.articles []) false).queue.length = 7 ∧ (t .all true).backlog = .articles []
      ∧ (t .all true).showOwed = true ∧ (t (.articles [4, 5]) true).backlog = .articles [5]
      ∧ (t (.articles [4, 5]) true).showOwed = true ∧ (t (.articles []) true).showOwed = false
      ∧ (s .all true).acknowledge 1 true = s .all true := by decide +kernel

/-- A SHOW in place of an unsent one, at the tail, and owed; a history of three readings; a window that is full. -/
theorem test_met_SamplesJudge_show :
    let s (q : List Entry) := (shop .normal .fixed []).setStation 1 { (shop .normal .fixed []).station 1 with queue := q }
    let show' : Entry := { msg := .verdict 1 0 Verdict.powerOn, sent := false }
    let t (q : List Entry) := (after (.samples 1 [.fault]) (s q)).station 1
    ((s [show']).hears 1 ∧ (s (notes 8)).hears 1)
      ∧ ((t [show']).queue.length = 1 ∧ (t [show']).queue ≠ [show'] ∧ (t (notes 7)).queue.length = 8
        ∧ (t (notes 8)).queue = notes 8 ∧ (t (notes 8)).showOwed = true)
      ∧ (takeReading { Channel.powerOn with history := [1, 5, 9], window := [5, 5, 5, 5] } (.ok 100)).history = [5, 9, 100]
      ∧ (takeReading { Channel.powerOn with history := [1, 5, 9], window := [5, 5, 5, 5] } (.ok 100)).window = [5, 5, 5, 9]
      ∧ (takeReading { Channel.powerOn with history := [1, 5, 9], window := [5, 5, 5, 5] } (.ok 100)).noise = 1 := by
  refine ⟨⟨⟨?_, ?_, ?_⟩, ⟨?_, ?_, ?_⟩⟩, ?_⟩ <;> decide +kernel

/-- R36 at 9 divisions over the maximum and 20 below zero, and the tare a verdict applies. -/
theorem test_met_VerdictsPrice_weights :
    let at' (g : Int) (m : Motion) : Channel := { Channel.powerOn with
      motion := m, result := some { f := 10 * g, fine := 10 * g, gross := g } }
    ([15018, 15019, -40, -41].map (fun g => weightState (at' g .stable)) = [.stable, .overload, .stable, .underload])
      ∧ weightState (at' 0 .motion) = .motion ∧ weightState { at' 0 .fault with result := none } = .fault
      ∧ (formVerdict { at' 0 .stable with tare := .keyed 125 } 1 false).tare = some 126
      ∧ (formVerdict { at' 0 .stable with tare := .keyed 124, range := .range2 } 1 false).tare = some 125
      ∧ (formVerdict (at' 0 .stable) 1 true).proof = true := by decide +kernel

/-- A NORMAL scale with 32 copies: the last VALID one goes, with its unsent FILL or by a PURGE; none where all PURGE. -/
theorem test_met_SelectPins_eviction :
    let m (p : Bool) : List CopyEntry := (List.range 32).map (fun i => { article := i + 100, revision := 1, purging := p })
    let s (p : Bool) (q : List Entry) := ((shop .normal .fixed []).setCopyMap 1 (m p)).setStation 1
      { (shop .normal .fixed []).station 1 with queue := q }
    ((s false []).takes 1 ∧ 32 ≤ ((s false []).copyMap 1).length ∧ copyOf ((s false []).copyMap 1) 7 = none)
      ∧ (((s false []).copyMap 1).drop 31 = [{ article := 131, revision := 1, purging := false }])
      ∧ ((s false [fillOf 131]).station 1).queue.any (unsent (isFillOf 131)) = true
      ∧ ((after (.select 1 7) (s false [])).copyMap 1).drop 31 = [{ article := 131, revision := 1, purging := true }]
      ∧ ((after (.select 1 7) (s false [fillOf 131])).copyMap 1).length = 31
      ∧ (after (.select 1 7) (s true [])).copyMap 1 = m true ∧ (∀ e ∈ m true, e.purging = true) := by
  refine ⟨⟨takes_of ?_, ?_, ?_⟩, ?_⟩ <;> decide +kernel

/-- PURGED of the last holder settles the change; with another holder, or an old pin, the change stays. -/
theorem test_met_ClearAndPurged_settles :
    let c : Change := { article := 7, kind := .change, oldRevision := 0, deadline := 10000 }
    let two := holding.setArticle 7 { holding.article 7 with holders := [1, 2] }
    holding.changeOf 7 = some c ∧ (∀ b ∈ (holding.article 7).holders, b = 1) ∧ holding.oldPins c = []
      ∧ (holding.article 7).state = .changing ∧ ((after (.purged 1 (some 7)) holding).op.fifo.map (·.subjects))
        = [[7, 1, 0, 1, 0, 0, 1]]
      ∧ (∃ b ∈ (two.article 7).holders, b ≠ 1) ∧ (after (.purged 1 (some 7)) two).changeOf 7 = some c
      ∧ (after (.purged 1 (some 7)) two).op.fifo = [] := by decide +kernel

/-- The holders when a change of article 7 opens: a PURGING entry, an unsent FILL, room, none but a FILL's, and none. -/
theorem test_met_ArticleChangesOpen_purges :
    let map (p : Bool) : List CopyEntry :=
      [{ article := 7, revision := 1, purging := p }, { article := 8, revision := 1, purging := false }]
    let s (p : Bool) (q : List Entry) := (((withArticle .live).setCopyMap 1 (map p)).setStation 1
      { (shop .normal .fixed []).station 1 with queue := q }).setArticle 7
        { (withArticle .live).article 7 with holders := [1], pins := [] }
    let t (p : Bool) (q : List Entry) := after (.artRetire [0#8, 7#8]) (s p q)
    ((s false []).inService 1 = true ∧ copyOf ((s true []).copyMap 1) 7 = some { article := 7, revision := 1, purging := true })
      ∧ (t true []).copyMap 1 = map true ∧ ((t true []).station 1).queue = []
      ∧ (t false [fillOf 7]).copyMap 1 = (map false).drop 1 ∧ ((t false [fillOf 7]).station 1).queue = []
      ∧ ((t false (notes 7)).station 1).queue.length = 8 ∧ (t false (notes 7)).copyMap 1 = map true
      ∧ oldestFill (notes 7 ++ [fillOf 8]) = some 8 ∧ (t false (notes 7 ++ [fillOf 8])).copyMap 1 = (map true).take 1
      ∧ oldestFill (notes 8) = none ∧ ((t false (notes 8)).station 1).backlog = .articles [7] := by decide +kernel

/-- A retirement that settles at once, to EMPTY and to RETIRING, and one that stays open over an old pin. -/
theorem test_met_ArticleChangesOpen_settled :
    let bare (refs : Nat) := (withArticle .live).setArticle 7
      { (withArticle .live).article 7 with holders := [], pins := [], refs := refs }
    let free (s : State) := s.setChannel 1 { s.channel 1 with ctx := { (s.channel 1).ctx with pin := none } }
    (after (.artRetire [0#8, 7#8]) (free (bare 0))).article 7 = Article.powerOn
      ∧ ((after (.artRetire [0#8, 7#8]) (free (bare 2))).article 7).state = .retiring
      ∧ (after (.artRetire [0#8, 7#8]) (free (bare 2))).changeOf 7 = none
      ∧ ((after (.artRetire [0#8, 7#8]) (withArticle .live)).changeOf 7).isSome = true := by decide +kernel

/-- Both channels match, and channel B alone. -/
theorem test_met_WatchesMatch_notices :
    ((State.reset.noteMatches { a := some .note, b := some .block } .add 1 1 3 5 7 500 0).op.fifo.map (·.subjects)) =
        [[1, 1, 1, 1, 1, 3, 5, 7, 500, 0], [2, 1, 3, 1, 1, 3, 5, 7, 500, 0]]
      ∧ ((State.reset.noteMatches { a := none, b := some .note } .void 3 1 3 5 7 500 2).op.fifo.map (·.subjects)) =
        [[2, 3, 1, 3, 1, 3, 5, 7, 500, 2]]
      ∧ (raiseCount { WatchChannel.powerOn with count := 65535 } true).count = 65535 := by decide +kernel

/-- The PRINT of a job that is still unsent at its deadline is withdrawn; another job's stays (R143). -/
theorem test_met_PrintJobsEnd_withdrawn :
    let k := ticket 5 3 (.printing { scale := 1, tag := 255, deadline := 15000 }) [bread]
    let s := (shop .normal .fixed [k]).setStation 1
      { (shop .normal .fixed [k]).station 1 with queue := [printOf 254, printOf 255, printOf 253] }
    unsent (isPrintOf 255) (printOf 255) = true ∧ (∀ x ∈ [printOf 254], unsent (isPrintOf 255) x = false)
      ∧ ((after (.printDeadlineExpiry 5) s).station 1).queue = [printOf 254, printOf 253] := by decide +kernel

/-- The settle timeout with room for the notices of one holder: 31 entries fall, 30 do not. -/
theorem test_met_SettleTimeoutForces_room :
    let s (n : Nat) : State := { holding with op := { holding.op with
      fifo := List.replicate n { kind := .rushOn, time := 0, subjects := [] } } }
    (s 30).op.overflow = false ∧ (s 30).op.fifo.length + ((s 30).article 7).holders.length < 32
      ∧ (after (.settleTimeout 7) (s 30)).op.fifo.length = 32 ∧ (after (.settleTimeout 7) (s 31)).op.overflow = true := by
  decide +kernel

/-! ### The end of a pin and the settle check (R97, R100) -/

/-- A change of article 7 that waits for the old pin of scale 1, and for holders or for the old pin of scale 2; scale 2 in
service, clerk 4 enrolled, article 8 LIVE. -/
def waitedFor (state : StationState) (l : List Ticket) (holders pins : List Nat) : State :=
  ((((((shop state .fixed l).setArticle 7 { (shop state .fixed l).article 7 with
      state := .changing, revision := 2, holders := holders, pins := pins }).setArticle 8
    { Article.powerOn with state := .live, content := some (goods .fixed), revision := 1 }).setStation 2
    { Station.powerOn with mode := .normal, state := .normal }).setChannel 2
    { Channel.powerOn with ctx := { ServiceContext.powerOn with pin := some (pinOf .fixed) } }).setClerk 4
    { Clerk.powerOn with enrolled := true }).setChanges [{ article := 7, kind := .change, oldRevision := 1, deadline := 10000 }]

/-- CLEAR, LOGOUT, SELECT of another article and of the same, two LOGINs, CLK.REMOVE, LABEL and a proof label, and ADD,
each with the state it is sent in. -/
def unpinning (holders pins : List Nat) : List (Instr × State) :=
  let s := waitedFor .normal [] holders pins
  [(.clear 1, s), (.logout 1, s), (.select 1 8, s), (.select 1 7, s), (.login 1 4, s), (.login 2 3, s),
    (.clkRemove [3#8], s), (.label 1 1, s), (.label 1 1, waitedFor .proof [] holders pins),
    (.add 1 1, waitedFor .normal [ticket 5 3 (.opened 120000) []] holders pins)]

theorem test_met_pinEnded_settles :
    (unpinning [] [1]).all (fun e => ((after e.1 e.2).changeOf 7).isNone
      && (after e.1 e.2).op.fifo.map (·.subjects) == [[7, 1, 1, 2, 0, 0, 1]]
      && ((after e.1 e.2).article 7).state == .live) = true := by decide +kernel

theorem test_met_pinEnded_stays :
    ((unpinning [] [1, 2]) ++ (unpinning [2] [1])).all (fun e => ((after e.1 e.2).changeOf 7).isSome
      && (after e.1 e.2).op.fifo == [] && ((after e.1 e.2).article 7).state == .changing) = true := by decide +kernel

theorem test_met_pinEnded_alone :
    (unpinning [] [1]).all (fun e => (after e.1 (e.2.setChanges [])).op.fifo == []
      && ((after e.1 (e.2.setChanges [])).article 7).state == .changing) = true := by decide +kernel

/-- The hypotheses of the clauses of LOGIN and CLK.REMOVE. -/
theorem test_met_ClerksMove_pins :
    let s := waitedFor .normal [] [] [1]
    takesB s 1 = true ∧ takesB s 2 = true ∧ s.clerkAt 1 = some 3 ∧ (s.clerk 4).scale = none ∧ s.clerkAt 2 = none
      ∧ (s.clerk 3).scale = some 1 ∧ (s.clerk 4).enrolled = true ∧ (s.channel 1).ctx.pin = some (pinOf .fixed) := by
  decide +kernel

/-! ### The join target (R9) -/

def joiningWith (mode : Mode) (score : Nat) (sent : Bool) : State :=
  State.reset.setStation 1 { Station.powerOn with
    mode := mode, state := .joining, score := score, dSeq := true, queue := [{ msg := .setmode .normal true none, sent := sent }] }

theorem test_met_joinTarget :
    let s := visiting (joiningWith .normal 28 true) 1 false none
    ((s.raiseScore 1).station 1).queue = [{ msg := .setmode .detached true none, sent := false }]
      ∧ (((joiningWith .proof 31 true).raiseScore 1).station 1).queue =
        [{ msg := .setmode .proof true none, sent := false }]
      ∧ ((after (.stnMode [1#8, 4#8]) s).station 1).queue = [{ msg := .setmode .proof true none, sent := false }]
      ∧ ((after (.stnMode [1#8, 2#8]) s).station 1).queue = [{ msg := .setmode .normal true none, sent := true }]
      ∧ ((after (.stnMode [1#8, 3#8]) (joiningWith .normal 0 false)).station 1).queue.map (·.msg) =
        [.setmode .detached true none] := by decide +kernel

/-! ### CALLOUTs (R18, R153) -/

def callOf (sent : Bool) : Entry := { msg := .callout .normal 3 [(9, 1)], sent := sent }

/-- The street with the display's queue, in a state, and no more. -/
def showing (state : StationState) (q : List Entry) : State :=
  street.setStation 18 { Station.powerOn with mode := .normal, state := state, queue := q }

theorem test_met_CalloutOffered :
    let one : Entry := { msg := .callout .normal 1 [], sent := false }
    let q (state : StationState) (l : List Entry) := ((after .take (showing state l)).station 18).queue
    q .normal [] = [one] ∧ q .normal [callOf false] = [one] ∧ q .normal [callOf true] = [callOf true, one]
      ∧ q .normal [callOf true, callOf false] = [callOf true, one] ∧ q .absent [] = []
      ∧ q .normal (notes 7) = notes 7 ++ [one] ∧ q .normal (notes 8) = notes 8
      ∧ (showing .normal []).inService 18 = true ∧ (showing .absent []).inService 18 = false := by decide +kernel

/-- SKIP of a number that stands in the now-serving list, and of one that does not. -/
theorem test_met_TicketsLeave_callout :
    let s (l : List (Nat × Nat)) : State := ((shop .normal .fixed [called]).setServing l).setStation 18
      { Station.powerOn with mode := .normal, state := .normal }
    takesB (s []) 1 = true
      ∧ ((after (.skip 1) (s [(8, 2), (9, 1)])).station 18).queue = [{ msg := .callout .normal 0 [(8, 2)], sent := false }]
      ∧ ((after (.skip 1) (s [(8, 2)])).station 18).queue = [] := by decide +kernel

/-! ### The rush level (R157, R158) -/

/-- A moment, a level entered at 0 with its residency passed or not, and waiting numbers. -/
def rushing (s : State) (level : RushLevel) (now residency count : Nat) : State :=
  { s with qc := { s.qc with level := level, residency := residency, waiting := List.range count }
           op := { s.op with now := now } }

/-- Ticket 5 is overdue under the shorter timeout of RUSH (45 s), ticket 6 is not. -/
def twoOpen : State :=
  ((shop .normal .fixed [ticket 5 3 (.opened 120000) [], { ticket 6 4 (.opened 120000) [] with lastActivity := 60000 }]).setStation
    17 { Station.powerOn with mode := .normal, state := .normal }).setStation 18
    { Station.powerOn with mode := .normal, state := .normal }

theorem test_met_Examined_take :
    let s := rushing twoOpen .normal 60000 60000 7
    let t := after .take s
    s.rushHolds 60000 8 ∧ s.numbersSound ∧ t.qc.level = .rush ∧ (t.ticketOf 5).map (·.state) = some (.parked 660000)
      ∧ (t.ticketOf 6).map (·.state) = some (.opened 105000) ∧ (t.clerk 3).active = none
      ∧ (t.channel 1).ctx.activeTicket = none ∧ overdue 60000 s.nextTimeout (ticket 5 3 (.opened 120000) [])
      ∧ t.op.fifo.map (·.subjects) = [[2, 8]]
      ∧ ¬ (rushing twoOpen .normal 59999 60000 7).rushHolds 59999 8 ∧ ¬ (rushing twoOpen .normal 60000 60000 6).rushHolds 60000 7
      ∧ (after .take (rushing twoOpen .normal 60000 60000 6)).qc.level = .normal := by
  refine ⟨?_, ⟨?_, ?_⟩, ?_, ?_, ?_, ?_, ?_, ⟨⟨120000, rfl⟩, ?_⟩, ?_, ?_, ?_, ?_⟩ <;>
    first | decide +kernel | (unfold State.rushHolds; decide +kernel)

theorem test_met_Examined_next :
    let s := rushing ((shop .normal .fixed []).setStation 18 { Station.powerOn with mode := .normal, state := .normal }) .rush
      130000 120000 5
    let t := after (.next 1) s
    s.rushHolds 130000 4 ∧ takesB s 1 = true ∧ s.atLimit 3 = false ∧ s.qc.waiting = 0 :: [1, 2, 3, 4] ∧ t.qc.level = .normal
      ∧ (t.ticketOf 1).map (·.state) = some (.opened 250000) ∧ (t.clerk 3).active = some 1
      ∧ (t.station 18).queue = [{ msg := .callout .normal 4 [(0, 1)], sent := false }]
      ∧ ¬ (rushing s .rush 130000 120000 6).rushHolds 130000 5
      ∧ (after (.next 1) (rushing s .rush 130000 120000 6)).qc.level = .rush := by
  refine ⟨?_, ?_, ?_, ?_, ?_, ?_, ?_, ?_, ?_, ?_⟩ <;> first | decide +kernel | (unfold State.rushHolds; decide +kernel)

theorem test_met_Examined_reset :
    let s := rushing twoOpen .rush 120000 120000 5
    let t := after (.queReset [1#8]) s
    s.rushHolds 120000 0 ∧ t.qc.level = .normal ∧ (t.ticketOf 5).map (·.state) = some (.parked 720000)
      ∧ (t.ticketOf 6).map (·.state) = some (.opened 180000) ∧ t.op.fifo.map (·.subjects) = [[1, 0]]
      ∧ (t.station 18).queue = [{ msg := .callout .normal 0 [], sent := false }]
      ∧ ((after (.queReset [1#8]) (rushing twoOpen .rush 120000 120000 0)).station 18).queue = []
      ∧ (after (.queReset [1#8]) (rushing twoOpen .rush 120000 120001 5)).qc.level = .rush := by
  refine ⟨?_, ?_, ?_, ?_, ?_, ?_, ?_, ?_⟩ <;> first | decide +kernel | (unfold State.rushHolds; decide +kernel)

theorem test_met_DeadlinesExpire_level :
    let s := rushing twoOpen .normal 0 60000 8
    let t := after .residencyExpiry s
    s.qc.residencyPending = true ∧ s.op.resetLow = false ∧ s.op.settings.rushThreshold ≤ s.qc.waiting.length ∧ t.op.now = 60000
      ∧ (t.ticketOf 5).map (·.state) = some (.parked 660000) ∧ (t.ticketOf 6).map (·.state) = some (.opened 105000)
      ∧ (t.station 18).queue = [{ msg := .callout .rush 8 [], sent := false }] := by decide +kernel

/-! ### Refusals and messages left -/

theorem test_met_TicketsReleased_refused :
    let s := shop .normal .fixed []
    (takesB (unmanned s) 1 = true ∧ (unmanned s).clerkAt 1 = none) ∧ takesB (shop .proof .fixed []) 1 = true
      ∧ (shop .proof .fixed []).clerkAt 1 = some 3 ∧ ((shop .proof .fixed []).station 1).state = .proof
      ∧ takesB (withoutFlag s) 1 = true ∧ ((withoutFlag s).clerk 3).supervisor = false ∧ (s.clerk 3).supervisor = true
      ∧ s.ticketOf 1 = none ∧ s.ticketOf 999 = none ∧ s.op.resetLow = false
      ∧ lastReply (after (.release 1 999) s) 1 = some (17, .wrongState, [])
      ∧ (after (.tktCancel [3#8, 231#8]) s).op.response =
        some { code := 65, result := .notFound, clamped := false, body := [] } := by decide +kernel

theorem test_met_MessagesNotTaken_take :
    let s (n : Nat) := street.setStation 17 { Station.powerOn with mode := .normal, state := .normal, queue := notes n }
    (s 6).admits 17 = false ∧ (s 5).admits 17 = true ∧ after .take (s 6) = s 6 := by decide +kernel

end Sys2Proof.Tests
end

section
/-! The capacity invariant, messages that are not taken, and the ends of print jobs. -/

namespace Sys2Proof.Machine

/-! ## Capacity -/

/-- Settles O9: the bounds are one part of what every step keeps. -/
theorem capacityInvariant : Obligations.CapacityInvariant :=
  fun _ _ hs hstep => (step_keeps hstep).capacity hs

/-! ## Messages not taken (R4, R14, R15) -/

theorem State.deliver_outOfService {s : State} {a : Nat} (k : StationKind) (room : Bool) (f : State → State)
    (h : s.inService a = false) : s.deliver a k room f = s := by
  simp [State.deliver, h]

theorem State.deliver_notAdmitted {s : State} {a : Nat} (k : StationKind) (f : State → State)
    (h : s.admits a = false) : s.deliver a k true f = s := by
  simp [State.deliver, h]

/-- R2, R14: a station out of service has no message taken. -/
theorem State.takeMessage_outOfService {s : State} {a : Nat} (m : UpMsg) (h : s.inService a = false) :
    s.takeMessage a m = s := by
  cases m <;> simp only [State.takeMessage, State.deliver_outOfService _ _ _ h]

/-- R15: an ACTION that is not admitted is not taken. -/
theorem State.takeAction_notAdmitted {s : State} {a : Nat} (act : Action) (h : s.admits a = false) :
    s.takeMessage a (.action act) = s := by
  simp only [State.takeMessage, State.deliver_notAdmitted _ _ h]

/-- R22: the answer to an action code that the table does not hold. -/
theorem State.takeUnknown_of_code {s : State} {a code : Nat} (h : 21 < code ∨ code = 0) :
    s.takeUnknown a code = s.reply a code .unknown [] := by
  unfold State.takeUnknown
  rw [if_neg (by omega)]

theorem State.unknownAction_answered {s : State} {a code : Nat} (ht : s.takes a) (h : 21 < code ∨ code = 0) :
    s.turnsAway (.unknownAction a code) a code .unknown := by
  show execUnknownAction a code s = _
  unfold execUnknownAction
  rw [if_neg (by omega), State.deliverAction_takes ht, State.takeUnknown_of_code h]

/-- Settles O40. -/
theorem messagesNotTaken : Obligations.MessagesNotTaken := by
  intro s
  refine ⟨fun a m _ _ h => State.takeMessage_outOfService m h, fun a act h => State.takeAction_notAdmitted act h,
    fun h => ?_, fun a code ht hc => State.unknownAction_answered ht hc, fun l => rfl⟩
  have hd : s.deliver 17 .dispenser true State.takeTake = s := State.deliver_notAdmitted _ _ h
  exact ⟨hd, congrArg Host.Outcome.next hd⟩

/-! ## Print jobs (R141 to R143) -/

/-- A posting reads and changes the Totals Unit and the Office Port alone. -/
theorem State.post_congr {s t : State} (htu : t.tu = s.tu) (hop : t.op = s.op) (k : Ticket) (a : Nat) :
    (t.post k a).tu = (s.post k a).tu ∧ (t.post k a).op = (s.post k a).op := by
  have hb : t.liveBank = s.liveBank := by unfold State.liveBank; rw [htu]
  have hset (b : Bank) : (t.setLiveBank b).tu = (s.setLiveBank b).tu ∧ (t.setLiveBank b).op = (s.setLiveBank b).op := by
    unfold State.setLiveBank
    rw [htu]
    cases s.tu.live <;> exact ⟨rfl, hop⟩
  unfold State.post State.account
  dsimp only
  rw [hb, htu]
  split
  · exact hset _
  · split
    · exact hset _
    · exact ⟨(hset _).1, State.raise_op_congr (hset _).2 _ _⟩

theorem State.post_changes' (s : State) (k : Ticket) (a : Nat) : Changes [.tu, .op] s (s.post k a) := by
  simp

theorem State.removed.congr {s s' t : State} {k : Ticket} (h : s'.removed t k) (hsc : s'.sc = s.sc)
    (hart : s'.art = s.art) : s.removed t k := by
  obtain ⟨htickets, hactive, hothers, hrefs⟩ := h
  refine ⟨by rw [htickets, hsc], fun hk => hactive (by rw [State.clerk_of_sc hsc]; exact hk),
    fun c hc => by rw [hothers c hc, State.clerk_of_sc hsc], fun n => by rw [hrefs, State.article_of_art hart]⟩

theorem State.markTaken_jobOf (s : State) (a tag : Nat) : (s.markTaken a).jobOf a tag = s.jobOf a tag := rfl

theorem State.exec_printed {s : State} {a : Nat} (h : s.hears a) (tag : Nat) (ok : Bool) :
    exec (.printed a tag ok) s = .next ((s.markTaken a).takePrinted a tag ok) := by
  show execPrinted a tag ok s = _
  unfold execPrinted
  rw [if_pos h.1, State.deliver_hears h]

/-- R141: the matched job of a PRINTED OK is posted and its ticket removed. -/
theorem State.takePrinted_ok {s : State} {a tag : Nat} {k : Ticket} (hj : s.jobOf a tag = some k) :
    let t := (s.markTaken a).takePrinted a tag true
    s.removed t k ∧ t.tu = (s.post k a).tu ∧ t.op = (s.post k a).op ∧ s.took t a := by
  intro t
  have ht : t = ((s.markTaken a).post k a).removeTicket k := by
    show State.takePrinted _ _ _ _ = _
    unfold State.takePrinted
    rw [State.markTaken_jobOf, hj]
    rfl
  have hpost := (s.markTaken a).post_changes' k a
  have hremove := ((s.markTaken a).post k a).removeTicket_changes' k
  obtain ⟨htu, hop⟩ := State.post_congr (s := s) (t := s.markTaken a) rfl rfl k a
  rw [ht]
  refine ⟨(State.removeTicket_removed _ k).congr (hpost.same .sc rfl) (hpost.same .art rfl), ?_, ?_, ?_⟩
  · rw [hremove.same .tu rfl, htu]
  · rw [hremove.same .op rfl, hop]
  · exact State.took_of_offers (((Offers.refl a _).then_changes hpost (by decide)).then_changes hremove (by decide))

/-- R142: the matched job of a PRINTED FAILED waits again. -/
theorem State.takePrinted_failed {s : State} {a tag : Nat} {k : Ticket} (hj : s.jobOf a tag = some k) :
    s.takePrinted a tag false = s.failJob k a tag 1 := by
  unfold State.takePrinted
  rw [hj]
  rfl

/-- R142: without a matching job the outcome is not read. -/
theorem State.takePrinted_unmatched {s : State} {a tag : Nat} (hj : s.jobOf a tag = none) (ok : Bool) :
    s.takePrinted a tag ok = s.unmatchedPrinted a tag := by
  unfold State.takePrinted
  rw [hj]

theorem State.refill_nothingOwed {s : State} {a : Nat} (hb : (s.station a).backlog = .articles [])
    (ho : (s.station a).showOwed = false) : s.refill a = s := by
  unfold State.refill
  dsimp only
  rw [hb, ho]
  simp

/-- The first unsent entry of a kind withdrawn, where it stands in the queue. -/
theorem withdrawUnsent_at {p : DownMsg → Bool} {l r : List Entry} {e : Entry} (he : unsent p e = true)
    (hl : ∀ x ∈ l, unsent p x = false) : withdrawUnsent p (l ++ e :: r) = l ++ r := by
  induction l with
  | nil => simp [withdrawUnsent, he]
  | cons x rest ih =>
    have hx : unsent p x = false := hl x (by simp)
    simp [withdrawUnsent, hx, ih (fun y hy => hl y (by simp [hy]))]

theorem State.withdrawPrint_only (s : State) (a tag : Nat) : StationOnly a s (s.withdrawPrint a tag) := by
  unfold State.withdrawPrint
  dsimp only
  split
  · exact (StationOnly.setStation s a _).trans (State.refill_offers _ a).only
  · exact .refl a s

theorem State.withdrawPrint_none {s : State} {a tag : Nat}
    (h : ∀ e ∈ (s.station a).queue, unsent (isPrintOf tag) e = false) : s.withdrawPrint a tag = s := by
  unfold State.withdrawPrint
  dsimp only
  rw [if_neg]
  rw [List.any_eq_true]
  rintro ⟨e, he, hu⟩
  rw [h e he] at hu
  cases hu

theorem State.withdrawPrint_at {s : State} {a tag : Nat} {l r : List Entry} {e : Entry}
    (hq : (s.station a).queue = l ++ e :: r) (he : unsent (isPrintOf tag) e = true)
    (hl : ∀ x ∈ l, unsent (isPrintOf tag) x = false) (hb : (s.station a).backlog = .articles [])
    (ho : (s.station a).showOwed = false) :
    s.withdrawPrint a tag = s.setStation a { s.station a with queue := l ++ r } := by
  unfold State.withdrawPrint
  dsimp only
  rw [if_pos (by rw [hq]; simp [he]), hq, withdrawUnsent_at he hl]
  exact State.refill_nothingOwed (by simpa using hb) (by simpa using ho)

/-! What the end of a job in PRINT_WAIT leaves of the blocks (R142, R143, R147). -/

theorem State.failJob_sc (s : State) (k : Ticket) (a tag cause : Nat) : (s.failJob k a tag cause).sc =
    { s.sc with tickets := replaceTicket (waiting k) s.sc.tickets } := rfl

theorem State.failJob_op (s : State) (k : Ticket) (a tag cause : Nat) :
    (s.failJob k a tag cause).op = (s.raise .printFailed [k.number, k.clerk, a, tag, cause]).op := rfl

theorem State.failJob_station (s : State) (k : Ticket) (a tag cause b : Nat) :
    (s.failJob k a tag cause).station b = s.station b := rfl

/-- R143: the row of a print deadline that stands. -/
theorem State.exec_printDeadline {s : State} {n : Nat} {k : Ticket} {job : PrintJob} (hr : s.op.resetLow = false)
    (hk : s.ticketOf n = some k) (hj : k.state = .printing job) :
    exec (.printDeadlineExpiry n) s = .next ((s.reach job.deadline).printExpired k job) := by
  have hp : printJob k = some job := by unfold printJob; rw [hj]
  have hd : s.deadlineOf (.print n) = some job.deadline := by simp [State.deadlineOf, hk, hp]
  have hk' : (s.reach job.deadline).ticketOf n = some k := hk
  show Host.Outcome.next (s.deadlineRow (.print n)) = _
  unfold State.deadlineRow
  rw [hd]
  dsimp only
  unfold State.expire
  rw [hr]
  dsimp only [State.takeDeadline]
  rw [hk']
  dsimp only
  rw [hp]
  rfl

/-- Settles O56. -/
theorem printJobsEnd : Obligations.PrintJobsEnd := by
  refine ⟨fun s a tag hh => ⟨fun k hj => ⟨?_, ?_⟩, fun hj => ⟨fun hp ok => ?_, fun hp ok => ?_⟩⟩,
    fun s n k job hr hk hj => ?_⟩
  · exact ⟨_, State.exec_printed hh tag true, State.takePrinted_ok hj⟩
  · rw [State.exec_printed hh, State.takePrinted_failed ((s.markTaken_jobOf a tag).trans hj)]
    rfl
  · have hp' : ((s.markTaken a).printRecord a).lastProof = some tag := hp
    rw [State.exec_printed hh, State.takePrinted_unmatched ((s.markTaken_jobOf a tag).trans hj)]
    unfold State.unmatchedPrinted
    dsimp only
    rw [if_pos hp']
    rfl
  · have hp' : ((s.markTaken a).printRecord a).lastProof ≠ some tag := hp
    rw [State.exec_printed hh, State.takePrinted_unmatched ((s.markTaken_jobOf a tag).trans hj)]
    unfold State.unmatchedPrinted
    dsimp only
    rw [if_neg hp']
    rfl
  · have hkn : k.number = n := (State.ticketOf_mem hk).2
    subst hkn
    obtain ⟨u, hu⟩ : ∃ u, u = s.reach job.deadline := ⟨_, rfl⟩
    have hulc : u.lc = s.lc := by rw [hu]; rfl
    have hst : u.station job.scale = s.station job.scale := State.station_of_lc hulc _
    have hw : Changes [.lc] u (u.withdrawPrint job.scale job.tag) := by simp
    refine ⟨(u.withdrawPrint job.scale job.tag).failJob k job.scale job.tag 2, ?_, ?_, ?_, ?_, ?_, ?_, ?_⟩
    · rw [State.exec_printDeadline hr hk hj, hu]
      rfl
    · exact ((StationOnly.of_lc hulc).trans (u.withdrawPrint_only _ _)).trans (StationOnly.of_lc rfl)
    · rw [State.failJob_sc, hw.same .sc rfl, hu]
      rfl
    · rw [State.failJob_op]
      exact State.raise_op_congr ((hw.same .op rfl).trans (by rw [hu]; rfl)) _ _
    · rw [hu]
      exact State.failJob_changes k _ _ _
        (State.withdrawPrint_changes _ _ (State.reach_changes _ (Changes.refl _ s) rfl) rfl) rfl
    · intro hq
      rw [← hst] at hq ⊢
      rw [State.failJob_station, State.withdrawPrint_none hq]
    · intro l e r hq he hl hb ho
      rw [← hst] at hq hb ho ⊢
      rw [State.failJob_station, State.withdrawPrint_at hq he hl hb ho, State.station_setStation, if_pos rfl]

end Sys2Proof.Machine
end

section
/-! The reads of the host: each is one transaction that changes nothing but the Office Port's response (R183). -/

namespace Sys2Proof.Machine

/-! ## Fields of a body (R184) -/

theorem field_head_eq {n v : Nat} (r : List Byte) (h : v < 256 ^ n) : field (chars n v ++ r) 1 n = v := by
  rw [field_head, Nat.mod_eq_of_lt h]

theorem field_chars_eq {n v : Nat} (h : v < 256 ^ n) : field (chars n v) 1 n = v := by
  rw [field_chars, Nat.mod_eq_of_lt h]

/-- The field behind a first field of m characters. -/
theorem field_behind (m w n : Nat) (r : List Byte) : field (chars m w ++ r) (m + 1) n = field r 1 n := by
  rw [field_append _ _ _ _ (by simp), chars_length, Nat.add_sub_cancel_left]

/-! ## A transaction that reads -/

/-- R183: a command whose meaning leaves the state alone stores its answer and nothing else. -/
theorem State.transact_reads {s : State} {code : Byte} {body : List Byte} {run : State → State × Answer} {r : Answer}
    (hr : s.op.resetLow = false) (hl : body.length ≤ 255) (hrun : run s = (s, r)) :
    s.transact code body run = s.responded code r.result r.clamped r.body (3 + body.length) := by
  unfold State.transact
  rw [hr, if_neg (by simp), if_neg (by omega), hrun]
  rfl

theorem articleNumber_of_range {n : Nat} (h1 : 1 ≤ n) (h2 : n ≤ 2048) : articleNumber n = true := by
  simp [articleNumber, h1, h2]

theorem State.artRead_eq {s : State} {n : Nat} (h1 : 1 ≤ n) (h2 : n ≤ 2048) :
    s.artRead (chars 2 n) = (s, .ok (s.articleChars n)) := by
  simp [State.artRead, field_chars_eq (show n < 256 ^ 2 by omega), articleNumber_of_range h1 h2]

theorem State.stnRead_eq {s : State} {a : Nat} (h1 : 1 ≤ a) (h2 : a ≤ 18) :
    s.stnRead (chars 1 a) = (s, .ok (s.stationReadChars a)) := by
  unfold State.stnRead
  dsimp only
  rw [field_chars_eq (by omega), if_neg (by rw [chars_length]; omega)]

theorem State.clkRead_eq {s : State} {c : Nat} (h1 : 1 ≤ c) (h2 : c ≤ 24) :
    s.clkRead (chars 1 c) = (s, .ok (s.clerkChars c)) := by
  unfold State.clkRead
  dsimp only
  rw [field_chars_eq (by omega), if_neg (by rw [chars_length]; omega)]

theorem State.tktRead_found {s : State} {n : Nat} {k : Ticket} (h1 : 1 ≤ n) (h2 : n ≤ 999) (hk : s.ticketOf n = some k) :
    s.tktRead (chars 2 n) = (s, .ok (ticketChars s.op.now k)) := by
  unfold State.tktRead
  dsimp only
  rw [field_chars_eq (by omega), if_neg (by rw [chars_length]; omega), if_neg (by omega), hk]

theorem State.tktRead_notFound {s : State} {n : Nat} (h1 : 1 ≤ n) (h2 : n ≤ 999) (hk : s.ticketOf n = none) :
    s.tktRead (chars 2 n) = (s, .refuse .notFound) := by
  unfold State.tktRead
  dsimp only
  rw [field_chars_eq (by omega), if_neg (by rw [chars_length]; omega), if_neg (by omega), hk]

/-- The fields of a TOT.READ body (R179). -/
theorem totRead_fields {role kind index : Nat} (hr : role < 256) (hk : kind < 256) (hi : index < 65536) :
    let body := chars 1 role ++ chars 1 kind ++ chars 2 index
    body.length = 4 ∧ field body 1 1 = role ∧ field body 2 1 = kind ∧ field body 3 2 = index := by
  intro body
  have hb : body = chars 1 role ++ (chars 1 kind ++ chars 2 index) := List.append_assoc _ _ _
  rw [hb]
  refine ⟨by simp, field_head_eq _ (by omega), ?_, ?_⟩
  · rw [field_behind 1, field_head_eq _ (by omega)]
  · rw [field_append _ _ _ _ (by simp), chars_length, field_behind 1, field_chars_eq (by omega)]

section
variable {s : State} {kind index : Nat} {row : List Byte}

theorem State.liveBank_eq (s : State) : s.liveBank = s.tu.bank s.tu.live := by
  unfold State.liveBank TotalsUnit.bank
  cases s.tu.live <;> rfl

/-- TOT.READ of the live bank, where the row exists (R179). -/
theorem State.totRead_live (hk : kind < 256) (hi : index < 65536) (hrow : s.liveBank.rowChars kind index = some row) :
    s.totRead (chars 1 1 ++ chars 1 kind ++ chars 2 index) = (s, .ok (chars 1 (bankCode s.tu.live) ++ chars 1 1
      ++ chars 2 s.liveBank.period ++ markChar s.liveBank.saturated ++ chars 1 kind ++ chars 2 index ++ row)) := by
  obtain ⟨hlen, hf1, hf2, hf3⟩ := totRead_fields (role := 1) (by omega) hk hi
  rw [State.liveBank_eq] at hrow ⊢
  unfold State.totRead
  dsimp only
  rw [hf1, hf2, hf3, if_pos rfl, if_neg (by omega), hrow]
  rfl

/-- TOT.READ of the other bank while it is not frozen (R179). -/
theorem State.totRead_notFrozen (hk : kind < 256) (hi : index < 65536)
    (hrow : (s.tu.bank (otherBank s.tu.live)).rowChars kind index = some row) (hf : s.tu.frozen = false) :
    s.totRead (chars 1 2 ++ chars 1 kind ++ chars 2 index) = (s, .refuse .notFound) := by
  obtain ⟨hlen, hf1, hf2, hf3⟩ := totRead_fields (role := 2) (by omega) hk hi
  unfold State.totRead
  dsimp only
  rw [hf1, hf2, hf3, if_neg (show ¬ (2 : Nat) = 1 by omega), if_neg (by omega), hrow]
  dsimp only
  rw [if_pos ⟨rfl, hf⟩]

/-- TOT.READ of the frozen bank (R179). -/
theorem State.totRead_frozen (hk : kind < 256) (hi : index < 65536)
    (hrow : (s.tu.bank (otherBank s.tu.live)).rowChars kind index = some row) (hf : s.tu.frozen = true) :
    let b := s.tu.bank (otherBank s.tu.live)
    s.totRead (chars 1 2 ++ chars 1 kind ++ chars 2 index) = (s, .ok (chars 1 (bankCode (otherBank s.tu.live))
      ++ chars 1 2 ++ chars 2 b.period ++ markChar b.saturated ++ chars 1 kind ++ chars 2 index ++ row)) := by
  obtain ⟨hlen, hf1, hf2, hf3⟩ := totRead_fields (role := 2) (by omega) hk hi
  intro b
  unfold State.totRead
  dsimp only
  rw [hf1, hf2, hf3, if_neg (show ¬ (2 : Nat) = 1 by omega), if_neg (by omega), hrow]
  dsimp only
  rw [if_neg (by simp [hf])]

end

/-! ## Each read as its transaction -/

theorem exec_artRead (body : List Byte) (s : State) :
    exec (.artRead body) s = .next (s.transact 19 body (fun t => t.artRead body)) := rfl

theorem exec_stnRead (body : List Byte) (s : State) :
    exec (.stnRead body) s = .next (s.transact 34 body (fun t => t.stnRead body)) := rfl

theorem exec_clkRead (body : List Byte) (s : State) :
    exec (.clkRead body) s = .next (s.transact 50 body (fun t => t.clkRead body)) := rfl

theorem exec_tktRead (body : List Byte) (s : State) :
    exec (.tktRead body) s = .next (s.transact 64 body (fun t => t.tktRead body)) := rfl

theorem exec_ticketDirectory (s : State) :
    exec .ticketDirectory s = .next (s.transact 64 (chars 2 0) (fun t => (t, .ok t.directoryChars))) := rfl

theorem exec_queRead (body : List Byte) (s : State) :
    exec (.queRead body) s = .next (s.transact 80 body (fun t => t.queRead body)) := rfl

theorem exec_wchRead (body : List Byte) (s : State) :
    exec (.wchRead body) s = .next (s.transact 97 body (fun t => t.wchRead body)) := rfl

theorem exec_totRead (body : List Byte) (s : State) :
    exec (.totRead body) s = .next (s.transact 113 body (fun t => t.totRead body)) := rfl

theorem exec_ctrRead (body : List Byte) (s : State) :
    exec (.ctrRead body) s = .next (s.transact 129 body (fun t => t.ctrRead body)) := rfl

theorem exec_ctrStatus (body : List Byte) (s : State) :
    exec (.ctrStatus body) s = .next (s.transact 132 body (fun t => t.ctrStatus body)) := rfl

/-- Settles O21. -/
theorem hostReads : Obligations.HostReads := by
  intro s hr
  refine ⟨fun n h1 h2 => ?_, fun a h1 h2 => ?_, fun c h1 h2 => ?_, fun n k h1 h2 hk => ?_, fun n h1 h2 hk => ?_, ?_, ?_,
    ?_, ?_, fun kind index row hk hi hrow => ?_, fun kind index row hk hi hrow => ⟨fun hf => ?_, fun hf => ?_⟩, ?_, ?_⟩
  · rw [exec_artRead, State.transact_reads hr (by simp) (State.artRead_eq h1 h2)]
    rfl
  · rw [exec_stnRead, State.transact_reads hr (by simp) (State.stnRead_eq h1 h2)]
    rfl
  · rw [exec_clkRead, State.transact_reads hr (by simp) (State.clkRead_eq h1 h2)]
    rfl
  · rw [exec_tktRead, State.transact_reads hr (by simp) (State.tktRead_found h1 h2 hk)]
    rfl
  · rw [exec_tktRead, State.transact_reads hr (by simp) (State.tktRead_notFound h1 h2 hk)]
    rfl
  · rw [exec_ticketDirectory, State.transact_reads hr (by simp) rfl]
    rfl
  · rw [exec_queRead, State.transact_reads hr (by simp) rfl]
    rfl
  · rw [exec_wchRead, State.transact_reads hr (by simp) rfl]
    rfl
  · rw [exec_wchRead, State.transact_reads hr (by simp) rfl]
    rfl
  · rw [exec_totRead, State.transact_reads hr (by simp) (State.totRead_live hk hi hrow)]
    rfl
  · rw [exec_totRead, State.transact_reads hr (by simp) (State.totRead_notFrozen hk hi hrow hf)]
    rfl
  · rw [exec_totRead, State.transact_reads hr (by simp) (State.totRead_frozen hk hi hrow hf)]
    rfl
  · rw [exec_ctrRead, State.transact_reads hr (by simp) rfl]
    rfl
  · rw [exec_ctrStatus, State.transact_reads hr (by simp) rfl]
    rfl

end Sys2Proof.Machine
end

section
/-! Characters read back: numbers, frames and the payloads of upstream messages (R5, R22). -/

namespace Sys2Proof.Machine

/-! ## Numbers -/

theorem number_chars {n v : Nat} (h : v < 256 ^ n) : number (chars n v) = v := by
  rw [number_chars_mod, Nat.mod_eq_of_lt h]

/-- The remainder of a number in the range of two's complement. -/
theorem emod_of_signedRange {m : Nat} {v : Int} (h1 : -(m : Int) ≤ 2 * v) (h2 : 2 * v < m) :
    v % m = if 0 ≤ v then v else v + m := by
  split
  · exact Int.emod_eq_of_lt (by omega) (by omega)
  · rw [← Int.add_emod_right]
    exact Int.emod_eq_of_lt (by omega) (by omega)

theorem signedNumber_signedChars {n : Nat} {v : Int} (h1 : -(256 ^ n : Nat) ≤ 2 * v) (h2 : 2 * v < (256 ^ n : Nat)) :
    signedNumber (signedChars n v) = v := by
  have hmod := emod_of_signedRange h1 h2
  have hnum : number (signedChars n v) = (v % (256 ^ n : Nat)).toNat :=
    number_chars (by rw [hmod]; split <;> omega)
  unfold signedNumber
  dsimp only
  rw [hnum, signedChars_length, hmod]
  generalize 256 ^ n = m at h1 h2
  split <;> split <;> omega

theorem chars_one (v : Nat) : chars 1 v = [BitVec.ofNat 8 v] := by
  simp [chars]

theorem toNat_ofNat_char {v : Nat} (h : v < 256) : (BitVec.ofNat 8 v).toNat = v := by
  rw [BitVec.toNat_ofNat, Nat.mod_eq_of_lt h]

/-! ## Frames (R5) -/

theorem flagsChar_bits (u d h : Bool) :
    (flagsChar u d h).getLsbD 0 = u ∧ (flagsChar u d h).getLsbD 1 = d ∧ (flagsChar u d h).getLsbD 2 = h := by
  cases u <;> cases d <;> cases h <;> decide

/-- A frame of the station itself, with at most 120 characters of data, passes the check. -/
theorem parseReply_frame {a k : Nat} (flags : Byte) {data : List Byte} (ha : a < 256) (hk : k < 256)
    (hd : data.length ≤ 120) : parseReply a (frame a k flags data) =
      (parseMessage (kindOf a) k data).map
        (fun m => { uSeq := flags.getLsbD 0, dAck := flags.getLsbD 1, hold := flags.getLsbD 2, msg := m }) := by
  obtain ⟨c, hc⟩ : ∃ c, c = crc (BitVec.ofNat 8 a :: BitVec.ofNat 8 k :: flags :: BitVec.ofNat 8 data.length :: data) :=
    ⟨_, rfl⟩
  have hframe : frame a k flags data = BitVec.ofNat 8 a :: BitVec.ofNat 8 k :: flags :: BitVec.ofNat 8 data.length ::
      (data ++ chars 2 c.toNat) := by
    rw [hc]
    simp [frame, chars_one]
  have hlen : (BitVec.ofNat 8 data.length).toNat = data.length := toNat_ofNat_char (by omega)
  have hcheck : number ((chars 2 c.toNat).take 2) = c.toNat := by
    rw [List.take_of_length_le (by simp)]
    exact number_chars c.isLt
  rw [hframe]
  unfold parseReply
  dsimp only
  rw [hlen, if_neg (by simp; omega), List.take_left, List.drop_left, hcheck, ← hc,
    if_pos ⟨rfl, toNat_ofNat_char ha⟩, toNat_ofNat_char hk]
  cases parseMessage (kindOf a) k data <;> rfl

/-! ## Payloads (R22) -/

theorem parseReadings_ok {v : Int} (h : readingSound (.ok v) = true) (l : List Byte) :
    parseReadings (signedChars 3 v ++ chars 1 1 ++ l) = (parseReadings l).map (.ok v :: ·) := by
  simp only [readingSound, Bool.and_eq_true, decide_eq_true_eq] at h
  have hv : signedNumber (signedChars 3 v) = v := signedNumber_signedChars (by norm_num; omega) (by norm_num; omega)
  obtain ⟨a, b, c, habc⟩ : ∃ a b c, signedChars 3 v = [a, b, c] := ⟨_, _, _, rfl⟩
  rw [habc] at hv ⊢
  show parseReadings (a :: b :: c :: BitVec.ofNat 8 1 :: l) = _
  rw [parseReadings, hv]
  cases parseReadings l <;> rfl

theorem parseReadings_fault (l : List Byte) :
    parseReadings (chars 3 0 ++ chars 1 2 ++ l) = (parseReadings l).map (.fault :: ·) := by
  show parseReadings (0#8 :: 0#8 :: 0#8 :: 2#8 :: l) = _
  rw [parseReadings]
  cases parseReadings l <;> rfl

/-- Readings as a station lays them out. -/
theorem parseReadings_laidOut {rs : List Reading} (h : rs.all readingSound = true) :
    parseReadings (upPayload (.samples rs)) = some rs := by
  induction rs with
  | nil => rfl
  | cons r rest ih =>
    rw [List.all_cons, Bool.and_eq_true] at h
    obtain ⟨hr, hrest⟩ := h
    have hi := ih hrest
    cases r with
    | ok v =>
      have hcons : upPayload (.samples (.ok v :: rest)) = signedChars 3 v ++ chars 1 1 ++ upPayload (.samples rest) := by
        simp [upPayload]
      rw [hcons, parseReadings_ok hr, hi]
      rfl
    | fault =>
      have hcons : upPayload (.samples (.fault :: rest)) = chars 3 0 ++ chars 1 2 ++ upPayload (.samples rest) := by
        simp [upPayload]
      rw [hcons, parseReadings_fault, hi]
      rfl

/-- R22: the code of an ACTION that is not in the table may be followed by any characters. -/
theorem parseAction_unknown {c : Nat} (args : List Byte) (h1 : c < 256) (h2 : c = 0 ∨ 21 < c) :
    parseAction (chars 1 c ++ args) = some (.unknown c) := by
  rw [chars_one]
  unfold parseAction
  dsimp only [List.cons_append]
  rw [toNat_ofNat_char h1]
  split <;> first | omega | rfl

/-- An ACTION as a station lays it out. -/
theorem parseAction_laidOut {act : Action} (h : sendable .scale (.action act) = true) :
    parseAction (chars 1 (actionCode act) ++ actionArgs act) = some act := by
  have two {n : Nat} (hn : argSound n = true) : number (chars 2 n) = n := number_chars (of_decide_eq_true hn)
  cases act with
  | select n | ptare n | qty n | login n | switch n | add n | label n | voidItem n | release n =>
    have hn : argSound n = true := h
    simp [chars_one, actionCode, actionArgs, parseAction, two hn]
  | override n p =>
    obtain ⟨hn, hp⟩ := (Bool.and_eq_true _ _).mp (show (argSound n && decide (p < 16777216)) = true from h)
    have h3 : number (chars 3 p) = p := number_chars (of_decide_eq_true hp)
    simp [chars_one, actionCode, actionArgs, parseAction, two hn, h3]
  | unknown c =>
    simp [sendable] at h
    have hc : c = 0 ∨ 21 < c := by omega
    exact parseAction_unknown [] h.1 hc
  | _ => rfl

theorem parsePurged_laidOut {n : Option Nat} (h : n.all (fun m => decide (1 ≤ m) && decide (m ≤ 2048)) = true) :
    parsePurged (chars 2 (n.getD 0)) = some (.purged n) := by
  cases n with
  | none => decide
  | some m =>
    simp at h
    have hm : number (chars 2 m) = m := number_chars (by omega)
    unfold parsePurged
    rw [Option.getD_some, if_pos (chars_length _ _), hm, if_neg (by omega), if_pos h.2]

theorem parsePrinted_laidOut {tag : Nat} (h : tag < 256) (ok : Bool) :
    parsePrinted (chars 1 tag ++ chars 1 (if ok then 1 else 2)) = some (.printed tag ok) := by
  cases ok <;> simp [chars_one, parsePrinted, toNat_ofNat_char h]

/-- Every message that a station of the kind may send, as it lays it out. -/
theorem parseMessage_laidOut {k : StationKind} {m : UpMsg} (h : sendable k m = true) :
    parseMessage k (upKind m) (upPayload m) = some m := by
  cases m with
  | nil => cases k <;> rfl
  | samples rs =>
    simp only [sendable, Bool.and_eq_true, beq_iff_eq, decide_eq_true_eq] at h
    obtain ⟨⟨⟨rfl, hmin⟩, hmax⟩, hr⟩ := h
    show parseSamples _ = _
    unfold parseSamples
    rw [parseReadings_laidOut hr]
    exact if_pos ⟨hmin, hmax⟩
  | action act =>
    obtain rfl : k = .scale := by
      have hk := (Bool.and_eq_true _ _ ▸ h).1
      simpa using hk
    show (parseAction _).map _ = _
    rw [show upPayload (.action act) = chars 1 (actionCode act) ++ actionArgs act from rfl, parseAction_laidOut h]
    rfl
  | purged n =>
    simp only [sendable, Bool.and_eq_true, beq_iff_eq] at h
    obtain ⟨rfl, hn⟩ := h
    exact parsePurged_laidOut hn
  | printed tag ok =>
    simp only [sendable, Bool.and_eq_true, beq_iff_eq, decide_eq_true_eq] at h
    obtain ⟨rfl, ht⟩ := h
    exact parsePrinted_laidOut ht ok
  | take =>
    simp only [sendable, beq_iff_eq] at h
    subst h
    rfl

theorem actionArgs_length_le (act : Action) : (actionArgs act).length ≤ 5 := by
  cases act <;> simp [actionArgs]

theorem upPayload_samples_length (rs : List Reading) : (upPayload (.samples rs)).length = 4 * rs.length := by
  induction rs with
  | nil => rfl
  | cons r rest ih =>
    simp only [upPayload, List.flatMap_cons, List.length_append, List.length_cons] at ih ⊢
    rw [ih]
    cases r <;> simp <;> omega

theorem upPayload_length_le {k : StationKind} {m : UpMsg} (h : sendable k m = true) : (upPayload m).length ≤ 120 := by
  cases m with
  | samples rs =>
    simp only [sendable, Bool.and_eq_true, decide_eq_true_eq] at h
    rw [upPayload_samples_length]
    omega
  | action act =>
    have := actionArgs_length_le act
    simp [upPayload]
    omega
  | _ => simp [upPayload]

theorem upKind_lt (m : UpMsg) : upKind m < 256 := by
  cases m <;> simp [upKind]

/-- Settles O13. -/
theorem charactersReadBack : Obligations.CharactersReadBack := by
  refine ⟨fun n v h => number_chars h, fun n v _ h1 h2 => signedNumber_signedChars h1 h2, fun a r _ h2 hs => ?_,
    fun a c u d h more ha h1 h2 hm => ?_⟩
  · obtain ⟨hu, hd, hh⟩ := flagsChar_bits r.uSeq r.dAck r.hold
    unfold replyChars
    rw [parseReply_frame _ (by omega) (upKind_lt _) (upPayload_length_le hs), parseMessage_laidOut hs, hu, hd, hh]
    rfl
  · obtain ⟨hu, hd, hh⟩ := flagsChar_bits u d h
    have ha' : a ≤ 16 := of_decide_eq_true (Bool.and_eq_true _ _ ▸ ha).2
    rw [parseReply_frame _ (by omega) (by omega) (by simp; omega), isScale_kind ha, hu, hd, hh]
    show ((parseAction _).map _).map _ = _
    rw [parseAction_unknown more h1 h2]
    rfl

end Sys2Proof.Machine
end

section
/-! SAMPLES: where a SHOW is placed, what each reading leaves of the channel, and the evaluation after the last of them
(R18, R28 to R37, R52). -/

namespace Sys2Proof.Machine

/-! ## A SHOW offered (R18) -/

theorem unsent_eq_true {p : DownMsg → Bool} {e : Entry} : unsent p e = true ↔ e.sent = false ∧ p e.msg = true := by
  simp [unsent]

theorem unsent_eq_false {p : DownMsg → Bool} {e : Entry} : unsent p e = false ↔ ¬ (e.sent = false ∧ p e.msg = true) := by
  rw [← Bool.not_eq_true, unsent_eq_true]

theorem any_unsent_at {p : DownMsg → Bool} {l r : List Entry} {e : Entry} (he : unsent p e = true) :
    (l ++ e :: r).any (unsent p) = true := by
  simp [he]

theorem any_unsent_none {p : DownMsg → Bool} {q : List Entry} (h : ∀ x ∈ q, unsent p x = false) :
    q.any (unsent p) = false := by
  simpa using h

section
variable {s : State} {a : Nat}

theorem State.offerVerdict_outOfService (h : s.inService a = false) : s.offerVerdict a = s := by
  simp [State.offerVerdict, h]

theorem State.offerVerdict_replaces (h : s.inService a = true) {l r : List Entry} {e : Entry}
    (hq : (s.station a).queue = l ++ e :: r) (he : unsent isVerdict e = true) (hl : ∀ x ∈ l, unsent isVerdict x = false) :
    s.offerVerdict a = s.setStation a
      { s.station a with queue := l ++ { msg := s.verdictMsg a, sent := false } :: r, showOwed := false } := by
  unfold State.offerVerdict
  dsimp only
  rw [if_pos h, hq, if_pos (any_unsent_at he), replaceUnsent_at he hl]

theorem State.offerVerdict_appends (h : s.inService a = true)
    (hq : ∀ x ∈ (s.station a).queue, unsent isVerdict x = false) (hf : ordinary (s.station a).queue < 8) :
    s.offerVerdict a = s.setStation a
      { s.station a with queue := (s.station a).queue ++ [{ msg := s.verdictMsg a, sent := false }], showOwed := false } := by
  unfold State.offerVerdict
  dsimp only
  rw [if_pos h, if_neg (by rw [any_unsent_none hq]; simp), if_pos (by unfold free; omega)]
  rfl

theorem State.offerVerdict_owed (h : s.inService a = true)
    (hq : ∀ x ∈ (s.station a).queue, unsent isVerdict x = false) (hf : 8 ≤ ordinary (s.station a).queue) :
    s.offerVerdict a = s.setStation a { s.station a with showOwed := true } := by
  unfold State.offerVerdict
  dsimp only
  rw [if_pos h, if_neg (by rw [any_unsent_none hq]; simp), if_neg (by unfold free; omega)]

/-! ## An evaluation (R52) -/

theorem State.evaluate_unchanged (h : s.verdictOf a (s.channel a) = (s.channel a).verdict) : s.evaluate a = s :=
  if_pos h

theorem State.evaluate_changed (h : s.verdictOf a (s.channel a) ≠ (s.channel a).verdict) :
    s.evaluate a = (s.setChannel a { s.channel a with
      verdict := s.verdictOf a (s.channel a), stamp := nextStamp (s.channel a).stamp }).offerVerdict a :=
  if_neg h

end

/-! ## One reading (R28 to R35, R37) -/

theorem enterWindow_length {w : Nat} (hw : 0 < w) (l : List Int) (v : Int) :
    (enterWindow w l v).length = min w (l.length + 1) := by
  unfold enterWindow
  split <;> simp <;> omega

theorem enterWindow_getLast (w : Nat) (l : List Int) (v : Int) : (enterWindow w l v).getLast? = some v := by
  simp [enterWindow]

theorem enterWindow_dropLast (w : Nat) (l : List Int) (v : Int) :
    (enterWindow w l v).dropLast = if w ≤ l.length then l.drop (l.length + 1 - w) else l := by
  simp [enterWindow]

theorem windowLength_pos (c : MetroConfig) : 0 < windowLength c := Nat.two_pow_pos c.k

section
variable (ch : Channel) (v : Int)

/-- What an OK reading leaves whether or not it fills the window. -/
theorem okReading_entered :
    let t := okReading ch v
    (t.config = ch.config ∧ t.tare = ch.tare ∧ t.ctx = ch.ctx ∧ t.verdict = ch.verdict ∧ t.stamp = ch.stamp)
    ∧ t.history = joinHistory ch.history v
    ∧ t.window = enterWindow (windowLength ch.config) ch.window (entering t.history v)
    ∧ t.noise = if isNoise ch.config t.history v then min 65535 (ch.noise + 1) else ch.noise := by
  unfold okReading
  dsimp only
  split <;> exact ⟨⟨rfl, rfl, rfl, rfl, rfl⟩, rfl, rfl, rfl⟩

/-- An OK reading that does not fill the window (R37 step 3). -/
theorem okReading_filling (h : ch.window.length + 1 < windowLength ch.config) :
    let t := okReading ch v
    t.motion = .filling ∧ t.pass = 0 ∧ t.result = none ∧ t.zero = ch.zero ∧ t.range = ch.range := by
  have hlen := enterWindow_length (windowLength_pos ch.config) ch.window (entering (joinHistory ch.history v) v)
  unfold okReading
  dsimp only
  rw [if_pos (by omega)]
  exact ⟨rfl, rfl, rfl, rfl, rfl⟩

/-- An OK reading with a full window (R37 steps 4 to 7). -/
theorem okReading_full (h : windowLength ch.config ≤ ch.window.length + 1) :
    let t := okReading ch v
    let f := filterOutput (windowLength ch.config) t.window
    t.pass = passAfter ch.config t.window ch.pass
    ∧ t.motion = (if spread t.window ≤ ch.config.band ∧ t.pass = ch.config.count then .stable else .motion)
    ∧ t.zero = (if tracks ch t.motion f then f else ch.zero)
    ∧ t.range = rangeAfter ch.config ch.range (f - t.zero)
    ∧ t.result = some { f := f, fine := f - t.zero, gross := grossOf (f - t.zero) (division ch.config t.range) } := by
  have hlen := enterWindow_length (windowLength_pos ch.config) ch.window (entering (joinHistory ch.history v) v)
  unfold okReading
  dsimp only
  rw [if_neg (by omega)]
  exact ⟨rfl, rfl, rfl, rfl, rfl⟩

end

/-- A reading leaves the configuration, the tare, the service context, the stored verdict and its stamp. -/
theorem takeReading_keeps (ch : Channel) (r : Reading) :
    (takeReading ch r).config = ch.config ∧ (takeReading ch r).tare = ch.tare ∧ (takeReading ch r).ctx = ch.ctx
      ∧ (takeReading ch r).verdict = ch.verdict ∧ (takeReading ch r).stamp = ch.stamp := by
  cases r with
  | ok v => exact (okReading_entered ch v).1
  | fault => exact ⟨rfl, rfl, rfl, rfl, rfl⟩

theorem takeReadings_keep (rs : List Reading) (ch : Channel) :
    (rs.foldl takeReading ch).verdict = ch.verdict ∧ (rs.foldl takeReading ch).stamp = ch.stamp := by
  induction rs generalizing ch with
  | nil => exact ⟨rfl, rfl⟩
  | cons r rest ih =>
    obtain ⟨-, -, -, hverdict, hstamp⟩ := takeReading_keeps ch r
    rw [List.foldl_cons, (ih _).1, (ih _).2, hverdict, hstamp]
    exact ⟨rfl, rfl⟩

/-! ## The history of three and its median (R31) -/

theorem joinHistory_eq (h : List Int) (v : Int) : joinHistory h v = (h ++ [v]).drop (h.length + 1 - 3) := by
  simp [joinHistory]

theorem joinHistory_getLast (h : List Int) (v : Int) : (joinHistory h v).getLast? = some v := by
  rw [joinHistory_eq, List.getLast?_drop, if_neg (by simp), List.getLast?_concat]

theorem entering_short {h : List Int} (hl : h.length < 3) (c : MetroConfig) (v : Int) :
    entering h v = v ∧ isNoise c h v = false := by
  rcases h with _ | ⟨x, _ | ⟨y, _ | ⟨z, l⟩⟩⟩
  · exact ⟨rfl, rfl⟩
  · exact ⟨rfl, rfl⟩
  · exact ⟨rfl, rfl⟩
  · simp at hl
    omega

theorem median_spec (x y z : Int) :
    (median x y z = x ∨ median x y z = y ∨ median x y z = z)
    ∧ (x ≤ median x y z ∧ y ≤ median x y z ∨ x ≤ median x y z ∧ z ≤ median x y z ∨ y ≤ median x y z ∧ z ≤ median x y z)
    ∧ (median x y z ≤ x ∧ median x y z ≤ y ∨ median x y z ≤ x ∧ median x y z ≤ z
        ∨ median x y z ≤ y ∧ median x y z ≤ z) := by
  unfold median
  omega

/-- Two of three values that pass a test are counted. -/
theorem two_le_filter {x y z : Int} {p : Int → Bool} (h : p x = true ∧ p y = true ∨ p x = true ∧ p z = true ∨ p y = true ∧ p z = true) :
    2 ≤ ([x, y, z].filter p).length := by
  rcases h with ⟨h1, h2⟩ | ⟨h1, h2⟩ | ⟨h1, h2⟩
  · simp [List.filter_cons, h1, h2]
  · by_cases hy : p y <;> simp [h1, h2, hy]
  · by_cases hx : p x <;> simp [h1, h2, hx]

/-! ## The stability check and the filter output (R32, R33) -/

theorem foldl_max_spec (l : List Int) (x : Int) :
    l.foldl max x ∈ x :: l ∧ ∀ y ∈ x :: l, y ≤ l.foldl max x := by
  induction l generalizing x with
  | nil => simp
  | cons z rest ih =>
    obtain ⟨hmem, hle⟩ := ih (max x z)
    rw [List.foldl_cons]
    have hxz := hle (max x z) (by simp)
    refine ⟨?_, fun y hy => ?_⟩
    · rcases List.mem_cons.mp hmem with h | h
      · rw [h]
        rcases max_choice x z with h | h <;> rw [h] <;> simp
      · simp [h]
    · rcases List.mem_cons.mp hy with rfl | hy
      · omega
      · rcases List.mem_cons.mp hy with rfl | hy
        · omega
        · exact hle y (by simp [hy])

theorem foldl_min_spec (l : List Int) (x : Int) :
    l.foldl min x ∈ x :: l ∧ ∀ y ∈ x :: l, l.foldl min x ≤ y := by
  induction l generalizing x with
  | nil => simp
  | cons z rest ih =>
    obtain ⟨hmem, hle⟩ := ih (min x z)
    rw [List.foldl_cons]
    have hxz := hle (min x z) (by simp)
    refine ⟨?_, fun y hy => ?_⟩
    · rcases List.mem_cons.mp hmem with h | h
      · rw [h]
        rcases min_choice x z with h | h <;> rw [h] <;> simp
      · simp [h]
    · rcases List.mem_cons.mp hy with rfl | hy
      · omega
      · rcases List.mem_cons.mp hy with rfl | hy
        · omega
        · exact hle y (by simp [hy])

/-- The spread is within a band exactly when no two values of the window are further apart. -/
theorem spread_le_iff (l : List Int) (b : Nat) : spread l ≤ b ↔ ∀ x ∈ l, ∀ y ∈ l, x - y ≤ b := by
  cases l with
  | nil => simp [spread]
  | cons x rest =>
    obtain ⟨hmax, hmax'⟩ := foldl_max_spec rest x
    obtain ⟨hmin, hmin'⟩ := foldl_min_spec rest x
    unfold spread
    dsimp only
    refine ⟨fun h y hy z hz => ?_, fun h => h _ hmax _ hmin⟩
    have := hmax' y hy
    have := hmin' z hz
    omega

/-- The filter output is the window sum divided by the window length, rounded half up. -/
theorem filterOutput_bounds {w : Nat} (hw : 0 < w) (l : List Int) :
    2 * (w : Int) * filterOutput w l ≤ 2 * l.sum + w ∧ 2 * l.sum + w < 2 * w * (filterOutput w l + 1) := by
  unfold filterOutput
  have hw' : 0 < 2 * (w : Int) := by omega
  exact ⟨Int.mul_ediv_self_le hw'.ne', Int.lt_mul_ediv_self_add hw' |>.trans_eq (by ring)⟩

/-! ## The message (R18, R28, R52) -/

theorem State.exec_samples {s : State} {a : Nat} {rs : List Reading} (h : s.hears a) (h1 : 1 ≤ rs.length)
    (h2 : rs.length ≤ 4) : exec (.samples a rs) s = .next ((s.markTaken a).takeSamples a rs) := by
  show execSamples a rs s = _
  unfold execSamples
  rw [if_pos ⟨h.1, h1, h2⟩, State.deliver_hears h]

/-- What taken SAMPLES leave of the channels and of the other blocks. -/
theorem State.takeSamples_frame (s : State) (a : Nat) (rs : List Reading) :
    let ch := rs.foldl takeReading (s.channel a)
    let t := (s.markTaken a).takeSamples a rs
    s.took t a ∧ t.channel a = judged ch (s.verdictOf a ch) ∧ ChannelOnly a s t ∧ Changes [.we, .lc] s t := by
  intro ch t
  have ht : t = ((s.markTaken a).setChannel a ch).evaluate a := rfl
  have hu : ((s.markTaken a).setChannel a ch).channel a = ch := by simp
  have hv : ((s.markTaken a).setChannel a ch).verdictOf a = s.verdictOf a :=
    State.verdictOf_congr rfl (s.markTaken_state a a)
  have hset : Offers a 0 (s.markTaken a) ((s.markTaken a).setChannel a ch) := .of_lc rfl
  have hoffers := hset.trans (State.evaluate_offers _ a)
  rw [ht]
  refine ⟨State.took_of_offers hoffers, ?_, fun b hb => ?_,
    State.evaluate_changes a (State.setChannel_changes a ch (State.markTaken_changes a (Changes.refl _ s) rfl) rfl) rfl⟩
  · rw [State.evaluate_channel, hu, hv]
  · rw [State.evaluate_channel_ne _ hb, State.channel_setChannel, if_neg hb, State.markTaken_channel]

/-- Where taken SAMPLES place the SHOW of a verdict that differs (R18). -/
theorem State.takeSamples_station {s : State} {a : Nat} (hs : s.inService a = true) (rs : List Reading) :
    let st := s.station a
    let v := s.verdictOf a (rs.foldl takeReading (s.channel a))
    let t := (s.markTaken a).takeSamples a rs
    let show' : Entry := { msg := .verdict a (nextStamp (s.channel a).stamp) v, sent := false }
    (v = (s.channel a).verdict → t.station a = { st with lastU := !st.lastU })
    ∧ (v ≠ (s.channel a).verdict →
        (∀ l e r, st.queue = l ++ e :: r → unsent isVerdict e = true → (∀ x ∈ l, unsent isVerdict x = false) →
          t.station a = { st with lastU := !st.lastU, queue := l ++ show' :: r, showOwed := false })
        ∧ ((∀ x ∈ st.queue, unsent isVerdict x = false) →
            (ordinary st.queue < 8 →
              t.station a = { st with lastU := !st.lastU, queue := st.queue ++ [show'], showOwed := false })
            ∧ (8 ≤ ordinary st.queue → t.station a = { st with lastU := !st.lastU, showOwed := true }))) := by
  intro st v t show'
  obtain ⟨hverdict, hstamp⟩ := takeReadings_keep rs (s.channel a)
  obtain ⟨u, hu⟩ : ∃ u, u = (s.markTaken a).setChannel a (rs.foldl takeReading (s.channel a)) := ⟨_, rfl⟩
  have ht : t = u.evaluate a := by rw [hu]; rfl
  have hch : u.channel a = rs.foldl takeReading (s.channel a) := by rw [hu]; simp
  have hv : u.verdictOf a (u.channel a) = v := by
    rw [hch, show u.verdictOf a = s.verdictOf a by
      rw [hu]; exact State.verdictOf_congr (s := s) rfl (s.markTaken_state a a)]
  have hst : u.station a = { st with lastU := !st.lastU } := by
    rw [hu]
    exact (s.markTaken_station a a).trans (if_pos rfl)
  rw [ht]
  refine ⟨fun h => ?_, fun h => ?_⟩
  · rw [State.evaluate_unchanged (by rw [hv, hch, hverdict]; exact h), hst]
  · obtain ⟨w, hw⟩ : ∃ w, w = u.setChannel a { u.channel a with
      verdict := u.verdictOf a (u.channel a), stamp := nextStamp (u.channel a).stamp } := ⟨_, rfl⟩
    have hwst : w.station a = { st with lastU := !st.lastU } := by rw [hw]; exact hst
    have hws : w.inService a = true := by
      unfold State.inService at hs ⊢
      rw [hwst]
      exact hs
    have hmsg : w.verdictMsg a = .verdict a (nextStamp (s.channel a).stamp) v := by
      unfold State.verdictMsg
      rw [hw, State.channel_setChannel, if_pos rfl, hv, hch, hstamp]
    rw [State.evaluate_changed (by rw [hv, hch, hverdict]; exact h), ← hw]
    refine ⟨fun l e r hq he hl => ?_, fun hq => ⟨fun hf => ?_, fun hf => ?_⟩⟩
    · rw [State.offerVerdict_replaces hws (by rw [hwst]; exact hq) he hl, State.station_setStation, if_pos rfl, hwst,
        hmsg]
    · rw [State.offerVerdict_appends hws (by rw [hwst]; exact hq) (by rw [hwst]; exact hf), State.station_setStation,
        if_pos rfl, hwst, hmsg]
    · rw [State.offerVerdict_owed hws (by rw [hwst]; exact hq) (by rw [hwst]; exact hf), State.station_setStation,
        if_pos rfl, hwst]

/-- The window and the filter output of an OK reading (R30 to R33). -/
theorem okReading_window (ch : Channel) (v : Int) :
    let t := okReading ch v
    (ch.window.length + 1 < 2 ^ ch.config.k →
      t.motion = .filling ∧ t.pass = 0 ∧ t.result = none ∧ t.window.length = ch.window.length + 1)
    ∧ (2 ^ ch.config.k ≤ ch.window.length + 1 → ∃ r, t.result = some r ∧ t.window.length = 2 ^ ch.config.k
        ∧ (2 * 2 ^ ch.config.k * r.f ≤ 2 * t.window.sum + 2 ^ ch.config.k
          ∧ 2 * t.window.sum + 2 ^ ch.config.k < 2 * 2 ^ ch.config.k * (r.f + 1))
        ∧ r.fine = r.f - t.zero ∧ (t.motion = .stable ∨ t.motion = .motion)) := by
  intro t
  obtain ⟨-, -, hwindow, -⟩ := okReading_entered ch v
  have hlen := enterWindow_length (windowLength_pos ch.config) ch.window (entering t.history v)
  refine ⟨fun h => ?_, fun h => ?_⟩
  · obtain ⟨hmotion, hpass, hresult, -, -⟩ := okReading_filling ch v h
    refine ⟨hmotion, hpass, hresult, ?_⟩
    rw [hwindow, hlen]
    exact min_eq_right h.le
  · obtain ⟨-, hmotion, -, -, hresult⟩ := okReading_full ch v h
    refine ⟨_, hresult, ?_, ?_, rfl, ?_⟩
    · rw [hwindow, hlen]
      exact min_eq_left h
    · have hb := filterOutput_bounds (windowLength_pos ch.config) t.window
      simpa [windowLength] using hb
    · rw [hmotion]
      split
      · exact .inl rfl
      · exact .inr rfl

/-- The history, the median and the noise count of an OK reading (R31). -/
theorem okReading_history (ch : Channel) (v : Int) :
    let t := okReading ch v
    t.history = (ch.history ++ [v]).drop (ch.history.length + 1 - 3)
    ∧ (t.history.length < 3 → t.window.getLast? = some v ∧ t.noise = ch.noise)
    ∧ ∀ x y z, t.history = [x, y, z] → ∃ m ∈ [x, y, z], t.window.getLast? = some m
        ∧ 2 ≤ ([x, y, z].filter (fun i => decide (i ≤ m))).length
        ∧ 2 ≤ ([x, y, z].filter (fun i => decide (m ≤ i))).length
        ∧ t.noise = if ch.config.spike ≠ 0 ∧ ch.config.spike < (m - z).natAbs then min 65535 (ch.noise + 1)
            else ch.noise := by
  intro t
  obtain ⟨-, hhistory, hwindow, hnoise⟩ := okReading_entered ch v
  have hlast : t.window.getLast? = some (entering t.history v) := by
    rw [hwindow]
    exact enterWindow_getLast _ _ _
  refine ⟨hhistory.trans (joinHistory_eq _ _), fun h => ?_, fun x y z h => ?_⟩
  · obtain ⟨he, hn⟩ := entering_short h ch.config v
    refine ⟨hlast.trans (by rw [he]), hnoise.trans ?_⟩
    rw [hn]
    rfl
  · have hz : v = z := by
      have hl := joinHistory_getLast ch.history v
      rw [← hhistory, h] at hl
      simpa using hl.symm
    obtain ⟨hmem, hbelow, habove⟩ := median_spec x y z
    refine ⟨median x y z, by simpa using hmem, ?_, two_le_filter (by simpa using hbelow),
      two_le_filter (by simpa using habove), hnoise.trans ?_⟩
    · rw [hlast, h]
      rfl
    · rw [h, hz]
      simp only [isNoise, Bool.and_eq_true, bne_iff_ne, decide_eq_true_eq, Nat.cast_lt]

/-- The stability check, zero tracking, the range state and the gross of a full window (R32 to R35, R37). -/
theorem okReading_judged {ch : Channel} {v : Int} (hfull : 2 ^ ch.config.k ≤ ch.window.length + 1) :
    let c := ch.config
    let t := okReading ch v
    let steady := ∀ x ∈ t.window, ∀ y ∈ t.window, x - y ≤ c.band
    (steady → t.pass = min c.count (ch.pass + 1)
      ∧ t.motion = if min c.count (ch.pass + 1) = c.count then .stable else .motion)
    ∧ (¬ steady → t.pass = 0 ∧ t.motion = .motion)
    ∧ ∀ r, t.result = some r →
      t.zero = (if c.tracking = true ∧ t.motion = .stable ∧ ch.tare = .noTare ∧ ch.ctx.pin = none
          ∧ (r.f - ch.zero).natAbs ≤ 5 * c.e1 ∧ r.f.natAbs ≤ 2 * (c.max / 5) then r.f else ch.zero)
      ∧ t.range = (if c.split = 0 then .range1
          else match ch.range with
            | .range1 => if 10 * (c.split : Int) < r.fine then .range2 else .range1
            | .range2 => if r.fine ≤ 5 * (c.e1 : Int) then .range1 else .range2)
      ∧ r.gross = grossOf r.fine (if c.split = 0 ∨ t.range = .range1 then c.e1 else c.e2) := by
  intro c t steady
  obtain ⟨hpass, hmotion, hzero, hrange, hresult⟩ := okReading_full ch v hfull
  have hsteady : spread (okReading ch v).window ≤ ch.config.band ↔ steady := spread_le_iff t.window c.band
  refine ⟨fun h => ?_, fun h => ?_, fun r hr => ?_⟩
  · have hp : t.pass = min c.count (ch.pass + 1) := hpass.trans (if_pos (hsteady.mpr h))
    refine ⟨hp, hmotion.trans ?_⟩
    rw [show (okReading ch v).pass = _ from hp]
    simp [hsteady.mpr h, c]
  · exact ⟨hpass.trans (if_neg (fun g => h (hsteady.mp g))), hmotion.trans (if_neg (fun g => h (hsteady.mp g.1)))⟩
  · obtain rfl : _ = r := Option.some.inj (hresult.symm.trans hr)
    refine ⟨hzero.trans ?_, hrange, ?_⟩
    · simp [tracks, and_assoc, c, t]
    · show grossOf _ (division ch.config (okReading ch v).range) = grossOf _ _
      unfold division
      congr 1
      show _ = if ch.config.split = 0 ∨ (okReading ch v).range = .range1 then ch.config.e1 else ch.config.e2
      cases (okReading ch v).range <;> by_cases hs : ch.config.split = 0 <;> simp [hs]

/-- Settles O41. -/
theorem samplesJudge : Obligations.SamplesJudge := by
  refine ⟨fun s a rs hh h1 h2 => ?_, fun ch => rfl, okReading_window, fun ch v => ?_⟩
  · obtain ⟨htook, hch, honly, hchanges⟩ := s.takeSamples_frame a rs
    refine ⟨_, State.exec_samples hh h1 h2, htook, hch, honly, hchanges, ?_⟩
    obtain ⟨hsame, hdiff⟩ := State.takeSamples_station hh.2.1 rs
    refine ⟨hsame, fun hv => ?_⟩
    obtain ⟨hreplace, hnone⟩ := hdiff hv
    exact ⟨fun l e r hq he hl => hreplace l e r hq (unsent_eq_true.mpr he) (fun x hx => unsent_eq_false.mpr (hl x hx)),
      fun hq => hnone (fun x hx => unsent_eq_false.mpr (hq x hx))⟩
  · obtain ⟨hconfig, htare, hctx, hverdict, hstamp⟩ := takeReading_keeps ch (.ok v)
    obtain ⟨hhistory, hshort, hthree⟩ := okReading_history ch v
    obtain ⟨-, -, hwindow, -⟩ := okReading_entered ch v
    refine ⟨hconfig, htare, hctx, hverdict, hstamp, hhistory, hshort, hthree, ?_, fun h => ?_, okReading_judged⟩
    · show (okReading ch v).window.dropLast = _
      rw [hwindow]
      exact enterWindow_dropLast _ _ _
    · obtain ⟨-, -, -, hzero, hrange⟩ := okReading_filling ch v h
      exact ⟨hzero, hrange⟩

end Sys2Proof.Machine
end

section
/-! Visit slots and good replies: which slot comes next, what a visit's end leaves of the stations, and the order in which
a good reply is used (R3, R4, R6, R8, R9, R13 to R16, R21, R22). -/

namespace Sys2Proof.Machine

/-! ## The choice of a slot (R3, R4) -/

/-- The i-th address after a pointer, wrapping from 18 to 1 (R3). -/
def addressAfter (pointer i : Nat) : Nat := (pointer + i) % 18 + 1

theorem isAbsent_iff {x : StationState} : isAbsent x = true ↔ x = .absent := by
  cases x <;> simp [isAbsent]

theorem isAbsent_not_polled {x : StationState} (h : polled x = true) : x ≠ .absent := by
  rintro rfl
  cases h

theorem polled_of_serving {x : StationState} (h : serving x = true) : polled x = true := by
  cases x <;> first | rfl | cases h

section
variable {s : State} {p : StationState → Bool}

theorem State.firstAfter_first {pointer i : Nat} (hi : i < 18) (h : p (s.station (addressAfter pointer i)).state = true)
    (hj : ∀ j, j < i → ¬ p (s.station (addressAfter pointer j)).state = true) :
    s.firstAfter p pointer = some (addressAfter pointer i) := by
  have hf : (List.range 18).find? (fun j => p (s.station (addressAfter pointer j)).state) = some i :=
    List.find?_range_eq_some.mpr ⟨h, by simpa using hi, fun j hlt => by simpa using hj j hlt⟩
  unfold State.firstAfter
  rw [List.find?_map]
  exact congrArg _ hf

theorem State.firstAfter_none {pointer : Nat} (h : ∀ b, 1 ≤ b → b ≤ 18 → ¬ p (s.station b).state = true) :
    s.firstAfter p pointer = none := by
  cases hf : s.firstAfter p pointer with
  | none => rfl
  | some b =>
    obtain ⟨h1, h2, hp⟩ := State.firstAfter_mem hf
    exact absurd hp (h b h1 h2)

theorem State.nextSlot_open (hv : s.lc.visit = none) (hr : s.op.resetLow = false) : s.nextSlot = s.beginSlot := by
  simp [State.nextSlot, hv, hr]

theorem State.nextSlot_busy {v : Visit} (hv : s.lc.visit = some v) : s.nextSlot = s := by
  simp [State.nextSlot, hv]

theorem State.beginSlot_none (hv : s.firstAfter polled s.lc.visitPtr = none)
    (hp : s.firstAfter isAbsent s.lc.probePtr = none) : s.beginSlot = s := by
  unfold State.beginSlot
  rw [hv, hp]

theorem State.beginSlot_probe {b : Nat} (hp : s.firstAfter isAbsent s.lc.probePtr = some b)
    (h : 8 ≤ s.lc.slotCount ∨ s.firstAfter polled s.lc.visitPtr = none) : s.beginSlot = s.beginProbe b := by
  unfold State.beginSlot
  rw [hp]
  cases hv : s.firstAfter polled s.lc.visitPtr with
  | none => rfl
  | some c =>
    dsimp only
    rw [if_pos (h.resolve_right (by rw [hv]; simp))]

theorem State.beginSlot_visit {b : Nat} (hv : s.firstAfter polled s.lc.visitPtr = some b)
    (h : s.lc.slotCount < 8 ∨ s.firstAfter isAbsent s.lc.probePtr = none) : s.beginSlot = s.beginVisit b := by
  unfold State.beginSlot
  rw [hv]
  cases hp : s.firstAfter isAbsent s.lc.probePtr with
  | none => rfl
  | some c =>
    dsimp only
    have hlt := h.resolve_right (by rw [hp]; simp)
    rw [if_neg (by omega)]

end

/-! ## What a slot leaves of the stations -/

theorem State.beginVisit_station (s : State) (a b : Nat) : (s.beginVisit a).station b = s.station b
    ∨ b = a ∧ (s.beginVisit a).station b = { s.station b with queue := markHead (s.station b).queue } := by
  unfold State.beginVisit
  dsimp only
  split
  · exact .inl rfl
  · split
    · exact .inl rfl
    · by_cases h : b = a
      · subst h
        exact .inr ⟨rfl, (State.station_setStation _ _ _ _).trans (if_pos rfl)⟩
      · exact .inl ((State.station_setStation _ _ _ _).trans (if_neg h))

/-- A slot that begins marks at most the head of a polled station's queue (R4). -/
theorem State.nextSlot_station (s : State) (b : Nat) : s.nextSlot.station b = s.station b
    ∨ polled (s.station b).state = true
      ∧ s.nextSlot.station b = { s.station b with queue := markHead (s.station b).queue } := by
  have visit {a : Nat} (ha : s.firstAfter polled s.lc.visitPtr = some a) : (s.beginVisit a).station b = s.station b
      ∨ polled (s.station b).state = true
        ∧ (s.beginVisit a).station b = { s.station b with queue := markHead (s.station b).queue } := by
    rcases s.beginVisit_station a b with h | ⟨rfl, h⟩
    · exact .inl h
    · exact .inr ⟨(State.firstAfter_mem ha).2.2, h⟩
  unfold State.nextSlot
  split
  · unfold State.beginSlot
    split
    · exact .inl rfl
    · exact .inl rfl
    · rename_i h _
      exact visit h
    · rename_i h _
      split
      · exact .inl rfl
      · exact visit h
  · exact .inl rfl

theorem State.beginVisit_slotCount (s : State) (a : Nat) : (s.beginVisit a).lc.slotCount = s.lc.slotCount := by
  unfold State.beginVisit
  dsimp only
  split
  · rfl
  · split <;> rfl

theorem State.nextSlot_slotCount (s : State) : s.nextSlot.lc.slotCount = s.lc.slotCount := by
  unfold State.nextSlot
  split
  · unfold State.beginSlot
    split
    · rfl
    · rfl
    · exact s.beginVisit_slotCount _
    · split
      · rfl
      · exact s.beginVisit_slotCount _
  · rfl

theorem map_msg_markHead (q : List Entry) : (markHead q).map (·.msg) = q.map (·.msg) := by
  cases q <;> rfl

/-- What the end of a visit and the slot after it leave of every station: its record but for one mark "sent". -/
theorem State.closed_station (u : State) (b : Nat) : ∃ q,
    (State.nextSlot (State.endVisit u)).station b = { u.station b with queue := q }
      ∧ q.map (·.msg) = (u.station b).queue.map (·.msg)
      ∧ (polled (u.station b).state = false → q = (u.station b).queue) := by
  have hu : (State.endVisit u).station b = u.station b := rfl
  rcases (State.endVisit u).nextSlot_station b with h | ⟨hp, h⟩ <;> rw [hu] at h
  · exact ⟨_, h, rfl, fun _ => rfl⟩
  · rw [hu] at hp
    exact ⟨_, h, map_msg_markHead _, fun hn => by rw [hp] at hn; cases hn⟩

theorem State.closed_changes (u : State) : Changes [.lc] u (State.nextSlot (State.endVisit u)) :=
  State.nextSlot_changes (State.endVisit_changes (Changes.refl _ u) rfl) rfl

/-! ## The use of a good reply (R6, R13, R16) -/

/-- The first part of R6: the miss count cleared and a scale's score lowered. -/
def State.heard (s : State) (a : Nat) : State := (s.setStation a { s.station a with miss := 0 }).lowerScore a

/-- A good reply up to its message: heard, then its D-ack and its hold-off bit. -/
def State.replied (s : State) (a : Nat) (r : Reply) : State := ((s.heard a).acknowledge a r.dAck).applyHold a r.hold

theorem State.goodReply_eq (s : State) (a : Nat) (r : Reply) : s.goodReply a r =
    if r.uSeq ≠ ((s.replied a r).station a).lastU then (s.replied a r).takeMessage a r.msg else s.replied a r := rfl

theorem State.lowerScore_station (s : State) (a : Nat) : (s.lowerScore a).station a =
    { s.station a with score := if kindOf a = .scale then (s.station a).score - 1 else (s.station a).score } := by
  unfold State.lowerScore
  cases kindOf a <;> simp

theorem State.lowerScore_changes' (s : State) (a : Nat) : Changes [.lc] s (s.lowerScore a) :=
  State.lowerScore_changes a (Changes.refl _ s) rfl

theorem State.heard_station (s : State) (a : Nat) : (s.heard a).station a = { s.station a with
    miss := 0, score := if kindOf a = .scale then (s.station a).score - 1 else (s.station a).score } := by
  unfold State.heard
  rw [State.lowerScore_station, State.station_setStation, if_pos rfl]

theorem State.heard_changes (s : State) (a : Nat) : Changes [.lc] s (s.heard a) :=
  State.lowerScore_changes a (State.setStation_changes _ _ (Changes.refl _ s) rfl) rfl

/-! ### The D-ack (R13, R21) -/

section
variable {s : State} {a : Nat} {e : Entry} {rest : List Entry}

theorem State.acknowledge_sent (hq : (s.station a).queue = e :: rest) (he : e.sent = true) :
    s.acknowledge a (s.station a).dSeq = s.removeHead a e rest := by
  unfold State.acknowledge
  dsimp only
  rw [hq]
  exact if_pos ⟨he, rfl⟩

theorem State.acknowledge_unsent (d : Bool) (h : ∀ e rest, (s.station a).queue = e :: rest → e.sent = false) :
    s.acknowledge a d = s := by
  unfold State.acknowledge
  dsimp only
  split
  · rfl
  · rename_i e rest hq
    rw [if_neg]
    rintro ⟨he, -⟩
    rw [h e rest hq] at he
    cases he

theorem State.acknowledge_other : s.acknowledge a (!(s.station a).dSeq) = s := by
  unfold State.acknowledge
  dsimp only
  split
  · rfl
  · rw [if_neg (by simp)]

/-- The station with its head acknowledged: the entry gone and D-seq at its other value. -/
def acknowledged (st : Station) (rest : List Entry) : Station := { st with queue := rest, dSeq := !st.dSeq }

theorem State.removeHead_join {target : StationState} {layout : Option ScaleLayout} (s : State) (a : Nat) (sent : Bool)
    (rest : List Entry) : s.removeHead a { msg := .setmode target true layout, sent := sent } rest =
      (s.setStation a (acknowledged (s.station a) rest)).completeJoin a target := rfl

theorem State.removeHead_setmode (h : ∃ x y, e.msg = .setmode x false y) :
    s.removeHead a e rest = s.setStation a (acknowledged (s.station a) rest) := by
  obtain ⟨x, y, h⟩ := h
  unfold State.removeHead
  rw [h]
  rfl

theorem State.removeHead_ordinary (h : ∀ x y z, e.msg ≠ .setmode x y z) :
    s.removeHead a e rest = (s.setStation a (acknowledged (s.station a) rest)).refill a := by
  unfold State.removeHead
  dsimp only
  split
  · rename_i hm
    exact absurd hm (h _ _ _)
  · rename_i hm
    exact absurd hm (h _ _ _)
  · rfl

/-! The refill of a station with room (the table of R21). -/

theorem State.refill_purgeAll (hf : ordinary (s.station a).queue < 8) (hb : (s.station a).backlog = .all) :
    s.refill a = s.setStation a { s.station a with
      queue := (s.station a).queue ++ [{ msg := .purgeAll, sent := false }], backlog := .articles [] } := by
  unfold State.refill
  dsimp only
  rw [if_pos (by unfold free; omega), hb]
  rfl

theorem State.refill_purge {n : Nat} {l : List Nat} (hf : ordinary (s.station a).queue < 8)
    (hb : (s.station a).backlog = .articles (n :: l)) :
    s.refill a = s.setStation a { s.station a with
      queue := (s.station a).queue ++ [{ msg := .purge n, sent := false }], backlog := .articles l } := by
  unfold State.refill
  dsimp only
  rw [if_pos (by unfold free; omega), hb]
  rfl

theorem State.refill_owed (hf : ordinary (s.station a).queue < 8) (hb : (s.station a).backlog = .articles [])
    (ho : (s.station a).showOwed = true) :
    s.refill a = s.setStation a { s.station a with
      queue := (s.station a).queue ++ [{ msg := s.verdictMsg a, sent := false }], showOwed := false } := by
  unfold State.refill
  dsimp only
  rw [if_pos (by unfold free; omega), hb]
  dsimp only
  rw [if_pos ho]
  rfl

end

/-! ### The end of a join (R9) -/

theorem kindOf_display {a : Nat} (h : kindOf a = .display) : a = 18 := by
  unfold kindOf at h
  split at h
  · cases h
  · split at h
    · assumption
    · cases h

/-- The joined station before its first SHOW or CALLOUT. -/
def State.joined (s : State) (a : Nat) (target : StationState) : State :=
  (s.setStation a { s.station a with state := target }).raise .stationUp [a, targetCode target]

theorem State.joined_station (s : State) (a : Nat) (target : StationState) :
    (s.joined a target).station a = { s.station a with state := target } :=
  (State.station_setStation s a a _).trans (if_pos rfl)

theorem State.completeJoin_offers (s : State) (a : Nat) (target : StationState) :
    Offers a 1 (s.joined a target) (s.completeJoin a target) := by
  have hc : s.completeJoin a target = match kindOf a with
      | .scale => (s.joined a target).offerVerdict a
      | .dispenser => s.joined a target
      | .display => (s.joined a target).offerCallout := rfl
  rw [hc]
  cases hk : kindOf a with
  | scale => exact State.offerVerdict_offers _ a
  | dispenser => exact (Offers.refl a _).mono (by omega)
  | display => rw [kindOf_display hk]; exact State.offerCallout_offers _

theorem State.completeJoin_op (s : State) (a : Nat) (target : StationState) :
    (s.completeJoin a target).op = (s.raise .stationUp [a, targetCode target]).op := by
  unfold State.completeJoin
  dsimp only
  split
  · exact (State.offerVerdict_changes a (Changes.refl [.lc] _) rfl).same .op rfl
  · rfl
  · exact (State.offerCallout_changes (Changes.refl [.lc] _) rfl).same .op rfl

/-- What the removal of a head leaves of the station, whatever message it carried. -/
theorem State.removeHead_station (s : State) (a : Nat) (e : Entry) (rest : List Entry) : ∃ x q b o,
    (s.removeHead a e rest).station a =
      { acknowledged (s.station a) rest with state := x, queue := q, backlog := b, showOwed := o } := by
  by_cases hm : ∃ x y z, e.msg = .setmode x y z
  · obtain ⟨msg, sent⟩ := e
    obtain ⟨x, join, z, rfl⟩ := hm
    cases join with
    | false =>
      rw [State.removeHead_setmode ⟨x, z, rfl⟩, State.station_setStation, if_pos rfl]
      exact ⟨_, _, _, _, rfl⟩
    | true =>
      obtain ⟨q, b, o, h⟩ := (State.completeJoin_offers (s.setStation a (acknowledged (s.station a) rest)) a x).keeps
      rw [State.joined_station, State.station_setStation, if_pos rfl] at h
      rw [State.removeHead_join, h]
      exact ⟨_, _, _, _, rfl⟩
  · obtain ⟨q, b, o, h⟩ := (State.refill_offers (s.setStation a (acknowledged (s.station a) rest)) a).keeps
    rw [State.station_setStation, if_pos rfl] at h
    rw [State.removeHead_ordinary (fun x y z h => hm ⟨x, y, z, h⟩), h]
    exact ⟨_, _, _, _, rfl⟩

/-- What a D-ack leaves of the station, whatever it acknowledges: no more than the state, the queue, D-seq, the backlog
and the SHOW owed mark. -/
theorem State.acknowledge_station (s : State) (a : Nat) (d : Bool) : ∃ x q dSeq b o,
    (s.acknowledge a d).station a =
      { s.station a with state := x, queue := q, dSeq := dSeq, backlog := b, showOwed := o } := by
  unfold State.acknowledge
  dsimp only
  split
  · exact ⟨_, _, _, _, _, rfl⟩
  · rename_i e rest hq
    split
    · obtain ⟨x, q, b, o, h⟩ := s.removeHead_station a e rest
      rw [h]
      exact ⟨_, _, _, _, _, rfl⟩
    · exact ⟨_, _, _, _, _, rfl⟩

/-! ### The hold-off bit (R16) -/

theorem State.applyHold_station (s : State) (a : Nat) (hold : Bool) : (s.applyHold a hold).station a =
    { s.station a with holdOff := if s.inService a then hold else (s.station a).holdOff } := by
  unfold State.applyHold
  split <;> simp

theorem State.applyHold_inService (s : State) (a : Nat) (hold : Bool) :
    (s.applyHold a hold).inService a = s.inService a := by
  unfold State.inService
  rw [State.applyHold_station]

/-- What a good reply leaves of its station before its message is taken. -/
theorem State.replied_station (s : State) (a : Nat) (r : Reply) : ∃ x q dSeq b o,
    (s.replied a r).station a = { s.station a with
      state := x, queue := q, dSeq := dSeq, backlog := b, showOwed := o, miss := 0,
      score := if kindOf a = .scale then (s.station a).score - 1 else (s.station a).score,
      holdOff := if (s.replied a r).inService a then r.hold else (s.station a).holdOff } := by
  obtain ⟨x, q, dSeq, b, o, h⟩ := (s.heard a).acknowledge_station a r.dAck
  refine ⟨x, q, dSeq, b, o, ?_⟩
  unfold State.replied
  rw [State.applyHold_inService, State.applyHold_station, h, State.heard_station]

theorem State.replied_changes (s : State) (a : Nat) (r : Reply) : Changes [.lc, .op] s (s.replied a r) :=
  State.applyHold_changes a _
    (State.acknowledge_changes a _ ((s.heard_changes a).grow (by simp)) rfl) rfl

/-! ### The reply frame (R4) -/

section
variable {s : State} {v : Visit} {r : Reply} {l : List Byte}

theorem State.exec_replyFrame (hv : s.lc.visit = some v) :
    exec (.replyFrame l) s = .next (State.nextSlot (State.endVisit (s.useReply v l))) := by
  show Host.Outcome.next (s.takeReply l) = _
  unfold State.takeReply
  rw [hv]

theorem State.exec_goodReply (hv : s.lc.visit = some v) (hp : v.probe = false) (hr : parseReply v.station l = some r) :
    exec (.replyFrame l) s = .next (State.nextSlot (State.endVisit (s.goodReply v.station r))) := by
  rw [State.exec_replyFrame hv]
  unfold State.useReply
  rw [hr, hp]
  rfl

theorem State.replied_lastU (s : State) (a : Nat) (r : Reply) :
    ((s.replied a r).station a).lastU = (s.station a).lastU := by
  obtain ⟨x, q, dSeq, b, o, h⟩ := s.replied_station a r
  rw [h]

/-- A reply without a message, or whose message repeats the last taken, ends there (R14). -/
theorem State.goodReply_old {a : Nat} (h : r.uSeq = (s.station a).lastU ∨ r.msg = .nil) :
    s.goodReply a r = s.replied a r := by
  rw [State.goodReply_eq, State.replied_lastU]
  rcases h with h | h
  · rw [if_neg (by rw [h]; simp)]
  · rw [h]
    split <;> rfl

/-- A new message is taken last (R14). -/
theorem State.goodReply_new {a : Nat} (h : r.uSeq ≠ (s.station a).lastU) :
    s.goodReply a r = (s.replied a r).takeMessage a r.msg := by
  rw [State.goodReply_eq, State.replied_lastU, if_pos h]

end

/-! ### Message rows (R22) -/

theorem State.deliverAction_scale {a : Nat} (h : isScale a = true) (s : State) (f : State → State) :
    s.deliverAction a f = s.deliver a .scale true f := by
  unfold State.deliverAction
  rw [if_pos h]

theorem isScale_of_kind {a : Nat} (h1 : 1 ≤ a) (h2 : a ≤ 18) (h : kindOf a = .scale) : isScale a = true := by
  unfold kindOf at h
  unfold isScale
  split at h
  · cases h
  · split at h
    · cases h
    · simp
      omega

theorem kindOf_dispenser {a : Nat} (h : kindOf a = .dispenser) : a = 17 := by
  unfold kindOf at h
  split at h
  · assumption
  · split at h <;> cases h

/-- A message row is the taking of its message (R22; log entry 4). -/
theorem State.exec_messageRow {a : Nat} {m : UpMsg} {i : Instr} (s : State) (h1 : 1 ≤ a) (h2 : a ≤ 18)
    (hs : sendable (kindOf a) m = true) (hi : messageRow a m = some i) : exec i s = .next (s.takeMessage a m) := by
  cases m with
  | nil => cases hi
  | samples rs =>
    simp only [sendable, Bool.and_eq_true, beq_iff_eq, decide_eq_true_eq] at hs
    obtain ⟨⟨⟨hk, hmin⟩, hmax⟩, -⟩ := hs
    cases hi
    exact congrArg Host.Outcome.next (if_pos ⟨isScale_of_kind h1 h2 hk, hmin, hmax⟩)
  | action act =>
    have hk : kindOf a = .scale := by simpa using ((Bool.and_eq_true _ _).mp hs).1
    have hd : ∀ f, s.deliverAction a f = s.deliver a .scale true f := State.deliverAction_scale (isScale_of_kind h1 h2 hk) s
    cases act with
    | unknown c =>
      have hc := ((Bool.and_eq_true _ _).mp hs).2
      simp only [Bool.and_eq_true, Bool.not_eq_true', decide_eq_true_eq, Bool.and_eq_false_iff, decide_eq_false_iff_not] at hc
      cases hi
      exact congrArg Host.Outcome.next ((if_neg (by omega)).trans (hd _))
    | _ =>
      cases hi
      exact congrArg Host.Outcome.next (hd _)
  | purged n =>
    have hk : kindOf a = .scale := by simpa using ((Bool.and_eq_true _ _).mp hs).1
    cases hi
    exact congrArg Host.Outcome.next (if_pos (isScale_of_kind h1 h2 hk))
  | printed tag ok =>
    have hk : kindOf a = .scale := by simpa using ((Bool.and_eq_true _ _).mp hs).1
    cases hi
    exact congrArg Host.Outcome.next (if_pos (isScale_of_kind h1 h2 hk))
  | take =>
    obtain rfl : a = 17 := kindOf_dispenser (by simpa [sendable] using hs)
    cases hi
    rfl

/-- Settles O39. -/
theorem repliesActAsRows : Obligations.RepliesActAsRows := by
  refine ⟨fun a m i s h1 h2 hs hi => s.exec_messageRow h1 h2 hs hi, fun s v r l hv hp hr => ?_,
    fun s a e rest hq he => ?_, fun s a d h => State.acknowledge_unsent d h, fun s a => State.acknowledge_other⟩
  · obtain ⟨x, q, dSeq, b, o, hst⟩ := s.replied_station v.station r
    intro heard w
    have hw : w = s.replied v.station r := rfl
    have hexec := State.exec_goodReply hv hp hr
    rw [hw]
    refine ⟨by rw [hst], by rw [hst], s.replied_changes _ r, fun hk => by rw [hst, if_pos hk], by rw [hst], fun h => ?_,
      fun h => ?_⟩
    · rw [hexec, State.goodReply_old h]
    · rw [hexec, State.goodReply_new h]
  · intro st out t
    have ht : t = s.removeHead a e rest := State.acknowledge_sent hq he
    have hout : (s.setStation a (acknowledged st rest)).station a = acknowledged st rest :=
      (State.station_setStation s a a _).trans (if_pos rfl)
    rw [ht]
    refine ⟨fun hm => State.removeHead_setmode hm, fun hm => ?_⟩
    rw [State.removeHead_ordinary hm]
    have hset (x : Station) : (s.setStation a (acknowledged st rest)).setStation a x = s.setStation a x :=
      s.setStation_setStation a _ x
    refine ⟨fun hb ho => ?_, fun hf hb => ?_, fun n l hf hb => ?_, fun hf hb ho => ?_⟩
    · exact State.refill_nothingOwed (by rw [hout]; exact hb) (by rw [hout]; exact ho)
    · exact (State.refill_purgeAll (by rw [hout]; exact hf) (by rw [hout]; exact hb)).trans (by rw [hout, hset]; rfl)
    · exact (State.refill_purge (by rw [hout]; exact hf) (by rw [hout]; exact hb)).trans (by rw [hout, hset]; rfl)
    · exact (State.refill_owed (by rw [hout]; exact hf) (by rw [hout]; exact hb) (by rw [hout]; exact ho)).trans
        (by rw [hout, hset]; rfl)

end Sys2Proof.Machine
end

section
/-! Joins and slots: a probe's good reply, the acknowledged join SETMODE, and the slot that begins (R3, R4, R8, R9). -/

namespace Sys2Proof.Machine

/-! ## A probe's good reply (R6, R8) -/

/-- The station record when its join begins. -/
def joining (st : Station) (score : Nat) (first : DownMsg) : Station :=
  { st with
    score := score, state := .joining, dSeq := true, lastU := false, miss := 0, holdOff := false, showOwed := false
    queue := [{ msg := first, sent := false }] }

theorem State.startJoin_station (s : State) (a : Nat) : (s.startJoin a).station a = joining (s.station a)
    (if kindOf a = .scale then (s.station a).score - 1 else (s.station a).score)
    (.setmode (joinTarget a (s.station a)) true (s.layoutOf a)) := by
  have hl : (s.lowerScore a).layoutOf a = s.layoutOf a := by
    unfold State.layoutOf
    rw [State.channel_of_we ((s.lowerScore_changes' a).same .we rfl)]
  have hj : joinTarget a ((s.lowerScore a).station a) = joinTarget a (s.station a) := by
    rw [State.lowerScore_station]
    rfl
  have hu (x : Station) : ((s.lowerScore a).setStation a x).station a = x :=
    (State.station_setStation _ a a x).trans (if_pos rfl)
  unfold State.startJoin
  dsimp only
  rw [hl, hj]
  split <;> refine (hu _).trans ?_ <;> rw [State.lowerScore_station] <;> rfl

theorem State.startJoin_channel {s : State} {a : Nat} (hk : kindOf a = .scale) :
    (s.startJoin a).channel a = emptied (s.channel a) := by
  have hc : (s.lowerScore a).channel a = s.channel a := State.channel_of_we ((s.lowerScore_changes' a).same .we rfl) a
  unfold State.startJoin
  rw [hk]
  dsimp only
  rw [State.channel_setChannel, if_pos rfl]
  exact congrArg emptied hc

theorem State.exec_probeReply {s : State} {v : Visit} {r : Reply} {l : List Byte} (hv : s.lc.visit = some v)
    (hp : v.probe = true) (hr : parseReply v.station l = some r) :
    exec (.replyFrame l) s = .next (State.nextSlot (State.endVisit (s.startJoin v.station))) := by
  rw [State.exec_replyFrame hv]
  unfold State.useReply
  rw [hr, hp]
  rfl

/-! ## The join completed (R9, R13) -/

theorem State.acknowledge_join {s : State} {a : Nat} {target : StationState} {layout : Option ScaleLayout}
    {rest : List Entry} (hq : (s.station a).queue = { msg := .setmode target true layout, sent := true } :: rest) :
    s.acknowledge a (s.station a).dSeq =
      (s.setStation a (acknowledged (s.station a) rest)).completeJoin a target := by
  rw [State.acknowledge_sent hq rfl, State.removeHead_join]

/-- The first entry of a station that has joined with an empty queue: a scale's SHOW, the display's CALLOUT (R9). -/
def State.firstEntry (s : State) (a : Nat) : List Entry :=
  match kindOf a with
  | .scale => [{ msg := s.verdictMsg a, sent := false }]
  | .dispenser => []
  | .display => [{ msg := s.calloutMsg, sent := false }]

theorem State.completeJoin_queue {s : State} {a : Nat} {target : StationState} (ht : serving target = true)
    (hq : (s.station a).queue = []) : ((s.completeJoin a target).station a).queue = s.firstEntry a := by
  have hst := s.joined_station a target
  have hin : (s.joined a target).inService a = true := by
    unfold State.inService
    rw [hst]
    exact ht
  have hempty : ((s.joined a target).station a).queue = [] := by rw [hst]; exact hq
  have hjoin : s.completeJoin a target = match kindOf a with
      | .scale => (s.joined a target).offerVerdict a
      | .dispenser => s.joined a target
      | .display => (s.joined a target).offerCallout := rfl
  rw [hjoin]
  unfold State.firstEntry
  cases hk : kindOf a with
  | scale =>
    dsimp only
    rw [State.offerVerdict_appends hin (by simp [hempty]) (by simp [hempty]), State.station_setStation, if_pos rfl, hempty]
    rfl
  | dispenser => exact hempty
  | display =>
    obtain rfl := kindOf_display hk
    obtain ⟨-, hoffer⟩ := (s.joined 18 target).offerCallout_offered
    obtain ⟨-, happend⟩ := hoffer hin
    dsimp only
    rw [(happend (by simp [hempty])).1 (by simp [hempty]), State.offerCallout_qc, hempty]
    rfl

theorem State.completeJoin_station (s : State) (a : Nat) (target : StationState) :
    ∃ q b o, (s.completeJoin a target).station a =
      { s.station a with state := target, queue := q, backlog := b, showOwed := o } := by
  obtain ⟨q, b, o, h⟩ := (s.completeJoin_offers a target).keeps
  exact ⟨q, b, o, by rw [h, s.joined_station]⟩

/-- A good reply whose D-ack acknowledges the join SETMODE, the queue's one entry. -/
theorem State.replied_join {s : State} {a : Nat} {r : Reply} {target : StationState} {layout : Option ScaleLayout}
    (ht : serving target = true) (hq : (s.station a).queue = [{ msg := .setmode target true layout, sent := true }])
    (hd : r.dAck = (s.station a).dSeq) :
    let u := s.replied a r
    (u.station a).state = target ∧ (u.station a).holdOff = r.hold
      ∧ u.op = (s.raise .stationUp [a, targetCode target]).op ∧ (u.station a).queue = s.firstEntry a := by
  intro u
  obtain ⟨h, hh⟩ : ∃ h, h = s.heard a := ⟨_, rfl⟩
  have hst : h.station a = _ := hh ▸ s.heard_station a
  have hframe : Changes [.lc] s h := hh ▸ s.heard_changes a
  have hdSeq : (h.station a).dSeq = (s.station a).dSeq := by rw [hst]
  obtain ⟨j, hj⟩ : ∃ j, j = h.setStation a (acknowledged (h.station a) []) := ⟨_, rfl⟩
  have hack : h.acknowledge a r.dAck = j.completeJoin a target := by
    rw [hd, ← hdSeq, hj]
    exact State.acknowledge_join (by rw [hst]; exact hq)
  have hu : u = (j.completeJoin a target).applyHold a r.hold := by
    show ((s.heard a).acknowledge a r.dAck).applyHold a r.hold = _
    rw [← hh, hack]
  obtain ⟨q, b, o, hjoined⟩ := j.completeJoin_station a target
  have hin : (j.completeJoin a target).inService a = true := by
    unfold State.inService
    rw [hjoined]
    exact ht
  have hjframe : Changes [.lc] s j := by
    rw [hj]
    exact State.setStation_changes _ _ hframe rfl
  have hopq : j.op = s.op := hjframe.same .op rfl
  have hfirst : j.firstEntry a = s.firstEntry a := by
    unfold State.firstEntry State.verdictMsg State.calloutMsg
    rw [State.channel_of_we (hjframe.same .we rfl), hjframe.same .qc rfl]
  have hempty : (j.station a).queue = [] := by
    rw [hj, State.station_setStation, if_pos rfl]
    rfl
  have hqueue := State.completeJoin_queue ht hempty
  refine ⟨?_, ?_, ?_, ?_⟩
  · rw [hu, State.applyHold_station, hjoined]
  · rw [hu, State.applyHold_station, if_pos hin]
  · rw [hu, (State.applyHold_changes a r.hold (Changes.refl [.lc] _) rfl).same .op rfl, State.completeJoin_op]
    exact State.raise_op_congr hopq _ _
  · rw [hu, State.applyHold_station, ← hfirst]
    exact hqueue

/-! ## The slot that begins (R3, R4) -/

section
variable {s : State} {b : Nat}

theorem State.beginProbe_eq (s : State) (b : Nat) : s.beginProbe b = { s with lc := { s.lc with
    probePtr := b, visit := some { station := b, probe := true, frame := frame b 1 0#8 [], window := none } } } := rfl

/-- An ordinary visit opened, with the frame it sends. -/
def State.opened (s : State) (b kind : Nat) (data : List Byte) : State :=
  { s with lc := { s.lc with
    visitPtr := b
    visit := some { station := b, probe := false, window := none,
                    frame := frame b kind (flagsChar (s.station b).dSeq (s.station b).lastU false) data } } }

theorem State.beginVisit_ask (h : (s.station b).queue = [] ∨ (s.station b).holdOff = true ∧ (s.station b).state ≠ .joining) :
    s.beginVisit b = s.opened b 1 [] := by
  unfold State.beginVisit
  dsimp only
  split
  · rfl
  · rename_i e rest hq
    rw [if_pos (h.resolve_left (by rw [hq]; simp))]
    rfl

theorem State.beginVisit_head {e : Entry} {rest : List Entry} (hq : (s.station b).queue = e :: rest)
    (h : (s.station b).holdOff = false ∨ (s.station b).state = .joining) :
    s.beginVisit b = (s.opened b (downKind e.msg) (payload e.msg)).setStation b
      { s.station b with queue := { e with sent := true } :: rest } := by
  unfold State.beginVisit
  dsimp only
  rw [hq]
  dsimp only
  rw [if_neg (by rintro ⟨h1, h2⟩; rcases h with h | h <;> simp_all)]
  rfl

end

/-- Settles O38. -/
theorem repliesJoin : Obligations.RepliesJoin := by
  refine ⟨fun s v r l hv hp hr => ?_, fun s a target layout rest hq => ?_,
    fun s v r l target layout hv hp hr ht hq hd hm => ?_, fun s hv hr => ?_⟩
  · obtain ⟨u, hu⟩ : ∃ u, u = s.startJoin v.station := ⟨_, rfl⟩
    have hst : u.station v.station = _ := hu ▸ s.startJoin_station v.station
    obtain ⟨q, hclosed, hmsg, -⟩ := u.closed_station v.station
    refine ⟨_, State.exec_probeReply hv hp hr, ?_⟩
    rw [← hu, hclosed, hst]
    refine ⟨rfl, rfl, rfl, rfl, ?_, ⟨u, rfl, by rw [hst]; rfl⟩, fun hk => ⟨?_, if_pos hk⟩⟩
    · rw [hst] at hmsg
      exact hmsg
    · rw [State.channel_of_we (u.closed_changes.same .we rfl), hu, State.startJoin_channel hk]
      rfl
  · intro t
    have ht : t = _ := State.acknowledge_join hq
    obtain ⟨q, b, o, h⟩ := (s.setStation a (acknowledged (s.station a) rest)).completeJoin_station a target
    rw [ht, h, State.station_setStation, if_pos rfl, State.completeJoin_op]
    exact ⟨rfl, rfl, rfl⟩
  · obtain ⟨hstate, hhold, hop, hqueue⟩ := State.replied_join ht hq hd
    refine ⟨_, by rw [State.exec_goodReply hv hp hr, State.goodReply_old hm.symm], hstate, hhold, hop, fun hs => ?_,
      fun h17 => ?_, fun h18 => ?_⟩
    · rw [hqueue]
      unfold State.firstEntry
      rw [isScale_kind hs]
      rfl
    · rw [hqueue, h17]
      rfl
    · rw [hqueue, h18]
      rfl
  · rw [State.nextSlot_open hv hr]
    refine ⟨fun h => ?_, fun i hi ha hj hc => ?_, fun i hi hb hj hc => ?_⟩
    · exact State.beginSlot_none (State.firstAfter_none (fun b h1 h2 => (h b h1 h2).1))
        (State.firstAfter_none (fun b h1 h2 g => (h b h1 h2).2 (isAbsent_iff.mp g)))
    · have hp : s.firstAfter isAbsent s.lc.probePtr = some (addressAfter s.lc.probePtr i) :=
        State.firstAfter_first hi (isAbsent_iff.mpr ha) (fun j hlt g => hj j hlt (isAbsent_iff.mp g))
      rw [State.beginSlot_probe hp (hc.imp_right State.firstAfter_none), State.beginProbe_eq]
      rfl
    · have hfirst : s.firstAfter polled s.lc.visitPtr = some (addressAfter s.lc.visitPtr i) :=
        State.firstAfter_first hi hb hj
      have hnone : s.lc.slotCount < 8 ∨ s.firstAfter isAbsent s.lc.probePtr = none :=
        hc.imp_right (fun h => State.firstAfter_none (fun b h1 h2 g => h b h1 h2 (isAbsent_iff.mp g)))
      rw [State.beginSlot_visit hfirst hnone]
      exact ⟨fun h => State.beginVisit_ask h, fun e rest hq h => State.beginVisit_head hq h⟩

end Sys2Proof.Machine
end

section
/-! Notices raised within one event, and the records a scale leaves when its map is emptied and its pin dropped (R44, R92,
R187). -/

namespace Sys2Proof.Machine

/-! ## Notices raised (R187) -/

/-- The Office Port of t is that of s after some notices of the given kinds, raised one after the other. -/
def Noted (kinds : List NoticeKind) (s t : State) : Prop :=
  ∃ raised : List (NoticeKind × List Nat), (∀ x ∈ raised, x.1 ∈ kinds)
    ∧ t.op = raised.foldl (fun p x => p.place x.1 x.2) s.op

section
variable {kinds : List NoticeKind} {s t u : State}

theorem Noted.of_op (h : t.op = s.op) : Noted kinds s t := ⟨[], by simp, h⟩

theorem Noted.raise (s : State) {k : NoticeKind} (subjects : List Nat) (h : k ∈ kinds) :
    Noted kinds s (s.raise k subjects) := ⟨[(k, subjects)], by simpa using h, rfl⟩

theorem Noted.trans (h : Noted kinds s t) (g : Noted kinds t u) : Noted kinds s u := by
  obtain ⟨l, hl, hop⟩ := h
  obtain ⟨m, hm, hop'⟩ := g
  refine ⟨l ++ m, fun x hx => ?_, by rw [hop', hop, List.foldl_append]⟩
  rcases List.mem_append.mp hx with hx | hx
  · exact hl x hx
  · exact hm x hx

theorem Noted.mono {more : List NoticeKind} (h : Noted kinds s t) (hk : ∀ k ∈ kinds, k ∈ more) : Noted more s t := by
  obtain ⟨l, hl, hop⟩ := h
  exact ⟨l, fun x hx => hk _ (hl x hx), hop⟩

theorem Noted.foldl {β : Type} {f : State → β → State} (hf : ∀ v x, Noted kinds v (f v x)) (l : List β) (s : State) :
    Noted kinds s (l.foldl f s) := by
  induction l generalizing s with
  | nil => exact .of_op rfl
  | cons x rest ih => exact (hf s x).trans (ih (f s x))

/-! What one notice leaves of the Office Port. -/

theorem OfficePort.place_clocks (p : OfficePort) (k : NoticeKind) (l : List Nat) :
    (p.place k l).now = p.now ∧ (p.place k l).clock = p.clock := by
  unfold OfficePort.place
  (repeat' split) <;> exact ⟨rfl, rfl⟩

theorem OfficePort.place_placed {p : OfficePort} (ho : p.overflow = false) (hl : p.fifo.length < 32) (k : NoticeKind)
    (l : List Nat) : (p.place k l).fifo = p.fifo ++ [{ kind := k, time := p.clock, subjects := l }]
      ∧ (p.place k l).overflow = false := by
  unfold OfficePort.place
  rw [ho, if_neg (by simp), if_pos hl]
  exact ⟨rfl, rfl⟩

/-- A notice is placed, or discarded with the overflow mark set. -/
theorem OfficePort.place_cases (p : OfficePort) (k : NoticeKind) (l : List Nat) :
    (p.overflow = false ∧ (p.place k l).fifo = p.fifo ++ [{ kind := k, time := p.clock, subjects := l }]
        ∧ (p.place k l).overflow = false)
      ∨ (p.place k l).fifo = p.fifo ∧ (p.place k l).overflow = true := by
  cases ho : p.overflow with
  | true =>
    right
    unfold OfficePort.place
    rw [if_pos ho]
    exact ⟨rfl, ho⟩
  | false =>
    by_cases hl : p.fifo.length < 32
    · exact .inl ⟨rfl, OfficePort.place_placed ho hl k l⟩
    · right
      unfold OfficePort.place
      rw [ho, if_neg (by simp), if_neg hl]
      exact ⟨rfl, rfl⟩

theorem places_facts (l : List (NoticeKind × List Nat)) (p : OfficePort) :
    let q := l.foldl (fun p x => p.place x.1 x.2) p
    q.now = p.now ∧ q.clock = p.clock ∧ (q.overflow = false → p.overflow = false)
      ∧ ∃ more, q.fifo = p.fifo ++ more ∧ ∀ x ∈ more, ∃ y ∈ l, x.kind = y.1 := by
  induction l generalizing p with
  | nil => exact ⟨rfl, rfl, id, [], by simp, by simp⟩
  | cons x rest ih =>
    obtain ⟨hnow, hclock, hover, more, hfifo, hkinds⟩ := ih (p.place x.1 x.2)
    obtain ⟨hnow', hclock'⟩ := p.place_clocks x.1 x.2
    rw [List.foldl_cons]
    have hrest : ∀ z ∈ more, ∃ y ∈ x :: rest, z.kind = y.1 := fun z hz =>
      let ⟨y, hy, he⟩ := hkinds z hz
      ⟨y, by simp [hy], he⟩
    rcases p.place_cases x.1 x.2 with ⟨ho, hf, -⟩ | ⟨hf, ho⟩
    · refine ⟨hnow.trans hnow', hclock.trans hclock', fun _ => ho, _ :: more, by rw [hfifo, hf]; simp; rfl, fun z hz => ?_⟩
      rcases List.mem_cons.mp hz with rfl | hz
      · exact ⟨x, by simp, rfl⟩
      · exact hrest z hz
    · refine ⟨hnow.trans hnow', hclock.trans hclock', fun h => ?_, more, by rw [hfifo, hf], hrest⟩
      have := hover h
      rw [ho] at this
      cases this

theorem Noted.now (h : Noted kinds s t) : t.op.now = s.op.now := by
  obtain ⟨l, -, hop⟩ := h
  rw [hop]
  exact (places_facts l s.op).1

theorem Noted.clock (h : Noted kinds s t) : t.op.clock = s.op.clock := by
  obtain ⟨l, -, hop⟩ := h
  rw [hop]
  exact (places_facts l s.op).2.1

theorem Noted.overflow (h : Noted kinds s t) (ho : t.op.overflow = false) : s.op.overflow = false := by
  obtain ⟨l, -, hop⟩ := h
  rw [hop] at ho
  exact (places_facts l s.op).2.2.1 ho

theorem Noted.fifo (h : Noted kinds s t) : ∃ more, t.op.fifo = s.op.fifo ++ more ∧ ∀ x ∈ more, x.kind ∈ kinds := by
  obtain ⟨l, hl, hop⟩ := h
  obtain ⟨-, -, -, more, hfifo, hkinds⟩ := places_facts l s.op
  rw [hop]
  refine ⟨more, hfifo, fun x hx => ?_⟩
  obtain ⟨y, hy, he⟩ := hkinds x hx
  rw [he]
  exact hl y hy

/-- The first notice of an event stands next in a FIFO with room, whatever follows it. -/
theorem Noted.first {k : NoticeKind} {l : List Nat} (h : Noted kinds (s.raise k l) t) (ho : s.op.overflow = false)
    (hl : s.op.fifo.length < 32) : t.op.fifo.take (s.op.fifo.length + 1) =
      s.op.fifo ++ [{ kind := k, time := s.op.clock, subjects := l }] := by
  obtain ⟨more, hfifo, -⟩ := h.fifo
  have hp : (s.raise k l).op.fifo = _ := (OfficePort.place_placed ho hl k l).1
  rw [hfifo, hp]
  exact List.take_left' (by simp)

/-- A notice raised within an event that ends without the overflow mark stands in the FIFO. -/
theorem Noted.raised_mem {k : NoticeKind} {l : List Nat} (h : Noted kinds (s.raise k l) t) (ho : t.op.overflow = false) :
    { kind := k, time := s.op.clock, subjects := l } ∈ t.op.fifo := by
  obtain ⟨more, hfifo, -⟩ := h.fifo
  have hr : (s.op.place k l).overflow = false := h.overflow ho
  rw [hfifo]
  rcases s.op.place_cases k l with ⟨-, hf, -⟩ | ⟨-, hover⟩
  · have hp : (s.raise k l).op.fifo = _ := hf
    rw [hp]
    simp
  · rw [hover] at hr
    cases hr

end

/-! ## The end of an event that touched articles -/

theorem State.settleCheck_noted (s : State) (n : Nat) : Noted [.changeSettled] s (s.settleCheck n) := by
  unfold State.settleCheck
  split
  · split
    · exact Noted.raise s _ (by simp)
    · exact .of_op rfl
  · exact .of_op rfl

theorem State.finish_noted (s : State) (l : List Nat) : Noted [.changeSettled] s (s.finish l) := by
  unfold State.finish
  exact (Noted.foldl State.settleCheck_noted _ s).trans (Noted.foldl (fun v n =>
    .of_op ((State.emptyCheck_changes n (Changes.refl [.art] v) rfl).same .op rfl)) _ _)

/-! ## A copy map emptied (R92) -/

theorem State.leaveHolders_article (s : State) (a k n : Nat) : (s.leaveHolders a k).article n =
    if n = k then { s.article n with holders := setErase a (s.article n).holders } else s.article n := by
  unfold State.leaveHolders
  dsimp only
  rw [State.article_setArticle]
  split
  · rename_i h
    rw [h]
  · rfl

theorem not_mem_setErase (a : Nat) (l : List Nat) : a ∉ setErase a l := by
  simp [setErase]

/-- A scale that has left the holders of articles has left those of each. -/
theorem State.leaveHolders_foldl (a : Nat) (l : List Nat) (s : State) (n : Nat)
    (h : n ∈ l ∨ a ∉ (s.article n).holders) :
    a ∉ ((l.foldl (fun t k => t.leaveHolders a k) s).article n).holders := by
  induction l generalizing s with
  | nil => exact h.resolve_left (by simp)
  | cons k rest ih =>
    rw [List.foldl_cons]
    refine ih _ ?_
    rw [State.leaveHolders_article]
    by_cases hk : n = k
    · right
      rw [if_pos hk]
      exact not_mem_setErase a _
    · rw [if_neg hk]
      exact h.imp_left (fun hm => (List.mem_cons.mp hm).resolve_left hk)

theorem State.emptyMap_holders (s : State) (a : Nat) : ∀ e ∈ s.copyMap a, a ∉ ((s.emptyMap a).article e.article).holders :=
  fun _ he => State.leaveHolders_foldl a _ _ _ (.inl (List.mem_map_of_mem he))

theorem State.emptyMap_copyMap (s : State) (a b : Nat) :
    (s.emptyMap a).copyMap b = if b = a then [] else s.copyMap b := by
  have hcd : (s.emptyMap a).cd = (s.setCopyMap a []).cd :=
    (Changes.foldl (l := [.art]) _ (Changes.refl _ _)
      (fun u x => State.leaveHolders_changes a x (Changes.refl _ u) rfl)).same .cd rfl
  rw [State.copyMap_of_cd hcd, State.copyMap_setCopyMap]

/-! ## A pin dropped (R44, R93) -/

theorem State.unpin_holders (s : State) (a n : Nat) :
    ((s.unpin a).article n).holders = (s.article n).holders := by
  rw [State.unpin_article]
  split <;> rfl

theorem State.unpin_pins {s : State} {a : Nat} {p : Snapshot} (h : (s.channel a).ctx.pin = some p) :
    a ∉ ((s.unpin a).article p.number).pins := by
  have hp : s.pinned a = some p.number := by simp [State.pinned, h]
  rw [State.unpin_article, if_pos hp]
  exact not_mem_setErase a _

theorem State.unpin_copyMap (s : State) (a b : Nat) : (s.unpin a).copyMap b = s.copyMap b :=
  State.copyMap_of_cd ((State.unpin_changes a (Changes.refl [.we, .art] s) rfl).same .cd rfl) b

end Sys2Proof.Machine
end

section
/-! Moves between in-service states, and the error score that detaches a scale (R6, R7, R9, R11, R17, R21, R92, R104). -/

namespace Sys2Proof.Machine

/-! ## The in-service SETMODE (R17) -/

section
variable {m : DownMsg} {q : List Entry}

theorem placeSetmode_replaces {l r : List Entry} {e : Entry} (he : unsent isSetmode e = true)
    (hl : ∀ x ∈ l, unsent isSetmode x = false) :
    placeSetmode m (l ++ e :: r) = l ++ { msg := m, sent := false } :: r := by
  unfold placeSetmode
  rw [if_pos (any_unsent_at he), replaceUnsent_at he hl]

/-- Without an unsent SETMODE the new one stands behind a sent head, or at the front. -/
theorem placeSetmode_new {e : Entry} {rest : List Entry} (h : ∀ x ∈ e :: rest, unsent isSetmode x = false) :
    placeSetmode m (e :: rest) =
      if e.sent then e :: { msg := m, sent := false } :: rest else { msg := m, sent := false } :: e :: rest := by
  unfold placeSetmode
  rw [if_neg (by rw [any_unsent_none h]; simp)]

theorem replaceUnsent_mem {p : DownMsg → Bool} (h : q.any (unsent p) = true) :
    { msg := m, sent := false } ∈ replaceUnsent p m q := by
  induction q with
  | nil => cases h
  | cons e rest ih =>
    unfold replaceUnsent
    split
    · simp
    · rename_i he
      exact List.mem_cons_of_mem _ (ih (by simpa [he] using h))

theorem placeSetmode_mem (m : DownMsg) (q : List Entry) : { msg := m, sent := false } ∈ placeSetmode m q := by
  unfold placeSetmode
  split
  · rename_i h
    exact replaceUnsent_mem h
  · cases q with
    | nil => simp
    | cons e rest =>
      dsimp only
      split <;> simp

/-- An entry of another kind stays when an unsent entry of a kind takes a new message. -/
theorem mem_replaceUnsent {p : DownMsg → Bool} {e : Entry} (he : e ∈ q) (hp : p e.msg = false) :
    e ∈ replaceUnsent p m q := by
  induction q with
  | nil => cases he
  | cons x rest ih =>
    unfold replaceUnsent
    rcases List.mem_cons.mp he with rfl | he
    · rw [if_neg (by simp [unsent, hp])]
      simp
    · split
      · simp [he]
      · exact List.mem_cons_of_mem _ (ih he)

end

/-! ## A SHOW offered leaves every other message -/

theorem State.offerVerdict_mem {s : State} {a : Nat} {e : Entry} (he : e ∈ (s.station a).queue)
    (hv : isVerdict e.msg = false) : e ∈ ((s.offerVerdict a).station a).queue := by
  unfold State.offerVerdict
  dsimp only
  split
  · split
    · rw [State.station_setStation, if_pos rfl]
      exact mem_replaceUnsent he hv
    · split <;> rw [State.station_setStation, if_pos rfl]
      · exact List.mem_append_left _ he
      · exact he
  · exact he

theorem State.offerVerdict_backlog (s : State) (a : Nat) :
    ((s.offerVerdict a).station a).backlog = (s.station a).backlog := by
  unfold State.offerVerdict
  dsimp only
  (repeat' split) <;> simp

theorem State.evaluate_mem {s : State} {a : Nat} {e : Entry} (he : e ∈ (s.station a).queue)
    (hv : isVerdict e.msg = false) : e ∈ ((s.evaluate a).station a).queue := by
  unfold State.evaluate
  dsimp only
  split
  · exact he
  · exact State.offerVerdict_mem he hv

theorem State.evaluate_backlog (s : State) (a : Nat) : ((s.evaluate a).station a).backlog = (s.station a).backlog := by
  unfold State.evaluate
  dsimp only
  split
  · rfl
  · exact State.offerVerdict_backlog _ a

/-! ## The PURGE "all" (R21) -/

/-- The queue without its unsent FILLs and PURGEs. -/
def keptQueue (q : List Entry) : List Entry := q.filter (fun e => e.sent || !(isFill e.msg || isPurge e.msg))

theorem keptQueue_eq (q : List Entry) : q.filter (fun e => !(unsent isFill e || unsent isPurge e)) = keptQueue q := by
  unfold keptQueue
  congr 1
  funext e
  unfold unsent
  cases e.sent <;> simp

section
variable {st : Station} (current : DownMsg)

theorem purgeAllOffered_full (h : 8 ≤ ordinary (keptQueue st.queue)) :
    purgeAllOffered st current = { st with queue := keptQueue st.queue, backlog := .all } := by
  unfold purgeAllOffered
  dsimp only
  rw [keptQueue_eq, if_neg (by unfold free; omega)]

theorem free_append_ordinary {q : List Entry} {m : DownMsg} (hm : isSetmode m = false) :
    free (append q m) = 8 - (ordinary q + 1) := by
  unfold free
  rw [ordinary_append, hm]
  rfl

theorem purgeAllOffered_placed (h : ordinary (keptQueue st.queue) < 8)
    (ho : st.showOwed = false ∨ ordinary (keptQueue st.queue) = 7) :
    purgeAllOffered st current =
      { st with queue := keptQueue st.queue ++ [{ msg := .purgeAll, sent := false }], backlog := .articles [] } := by
  unfold purgeAllOffered
  dsimp only
  rw [keptQueue_eq, if_pos (by unfold free; omega), free_append_ordinary rfl, if_neg]
  · rfl
  · rw [Bool.and_eq_true, decide_eq_true_eq]
    rintro ⟨h1, h2⟩
    rcases ho with ho | ho
    · rw [ho] at h1
      cases h1
    · omega

theorem purgeAllOffered_owed (h : ordinary (keptQueue st.queue) < 7) (ho : st.showOwed = true) :
    purgeAllOffered st current = { st with
      queue := keptQueue st.queue ++ [{ msg := .purgeAll, sent := false }, { msg := current, sent := false }],
      backlog := .articles [], showOwed := false } := by
  unfold purgeAllOffered
  dsimp only
  rw [keptQueue_eq, if_pos (by unfold free; omega), free_append_ordinary rfl, if_pos]
  · simp [append]
  · simp [ho]
    omega

/-- A PURGE "all" offered stands in the queue or as the backlog's marker. -/
theorem purgeAllOffered_offers (st : Station) : (∃ e ∈ (purgeAllOffered st current).queue, e.msg = .purgeAll)
    ∨ (purgeAllOffered st current).backlog = .all := by
  unfold purgeAllOffered
  dsimp only
  split
  · left
    split <;> exact ⟨{ msg := .purgeAll, sent := false }, by simp [append], rfl⟩
  · exact .inr rfl

/-- A message that is neither a FILL nor a PURGE stays. -/
theorem mem_purgeAllOffered {e : Entry} (he : e ∈ st.queue) (h1 : isFill e.msg = false) (h2 : isPurge e.msg = false) :
    e ∈ (purgeAllOffered st current).queue := by
  have hk : e ∈ st.queue.filter (fun e => !(unsent isFill e || unsent isPurge e)) := by
    simp [unsent, he, h1, h2]
  unfold purgeAllOffered
  dsimp only
  split
  · split
    · exact List.mem_append_left _ (List.mem_append_left _ hk)
    · exact List.mem_append_left _ hk
  · exact hk

/-- Only the queue, the backlog and the SHOW owed mark change. -/
theorem purgeAllOffered_fields (st : Station) : ∃ q b o,
    purgeAllOffered st current = { st with queue := q, backlog := b, showOwed := o } := by
  unfold purgeAllOffered
  dsimp only
  split
  · split <;> exact ⟨_, _, _, rfl⟩
  · exact ⟨_, _, _, rfl⟩

end

theorem State.offerPurgeAll_station {s : State} {a : Nat} (h : s.inService a = true) :
    s.offerPurgeAll a = s.setStation a (purgeAllOffered (s.station a) (s.verdictMsg a)) := if_pos h

/-! ## A move between in-service states (R11, R17, R92, R104) -/

/-- The station with its in-service SETMODE queued, before its map and its pin are looked at. -/
def State.moved (s : State) (a : Nat) (x : StationState) : State :=
  (s.setStation a { s.station a with state := x }).offerSetmode a

theorem State.moved_station (s : State) (a : Nat) (x : StationState) : (s.moved a x).station a =
    { s.station a with state := x, queue := placeSetmode (.setmode x false (s.layoutOf a)) (s.station a).queue } := by
  unfold State.moved State.offerSetmode
  dsimp only
  rw [State.station_setStation, if_pos rfl, State.station_setStation, if_pos rfl]
  rfl

theorem State.moved_only (s : State) (a : Nat) (x : StationState) : StationOnly a s (s.moved a x) :=
  (StationOnly.setStation s a _).trans (StationOnly.setStation _ a _)

theorem State.moved_changes (s : State) (a : Nat) (x : StationState) : Changes [.lc] s (s.moved a x) :=
  State.offerSetmode_changes a (State.setStation_changes _ _ (Changes.refl _ s) rfl) rfl

/-- The map emptied, with its PURGE "all" (R92). -/
def State.purged (s : State) (a : Nat) : State := (s.emptyMap a).offerPurgeAll a

theorem State.purged_station {s : State} {a : Nat} (h : s.inService a = true) :
    (s.purged a).station a = purgeAllOffered (s.station a) (s.verdictMsg a) := by
  have hm := State.emptyMap_changes a (Changes.refl [.cd, .art] s) rfl
  have hst : (s.emptyMap a).station a = s.station a := State.station_of_lc (hm.same .lc rfl) a
  have hv : (s.emptyMap a).verdictMsg a = s.verdictMsg a := by
    unfold State.verdictMsg
    rw [State.channel_of_we (hm.same .we rfl)]
  have hin : (s.emptyMap a).inService a = true := by rw [State.inService_of_lc (hm.same .lc rfl)]; exact h
  unfold State.purged
  rw [State.offerPurgeAll_station hin, State.station_setStation, if_pos rfl, hst, hv]

theorem State.purged_only (s : State) (a : Nat) : StationOnly a s (s.purged a) := by
  have hm := State.emptyMap_changes a (Changes.refl [.cd, .art] s) rfl
  refine (StationOnly.of_lc (hm.same .lc rfl)).trans ?_
  show StationOnly a _ ((s.emptyMap a).offerPurgeAll a)
  unfold State.offerPurgeAll
  split
  · exact .setStation _ a _
  · exact .refl a _

/-- What a move of scale a from one in-service state to the state x leaves (R11, R17, R51, R92, R104). -/
structure State.MovedInService (s t : State) (a : Nat) (x : StationState) : Prop where
  only : StationOnly a s t
  station : ∃ q b o, t.station a = { s.station a with state := x, queue := q, backlog := b, showOwed := o }
  setmode : ∃ e ∈ (t.station a).queue, e.msg = .setmode x false (s.layoutOf a)
  channel : let ch := if (s.channel a).ctx.pin.isSome then unpinned (s.channel a) else s.channel a
    t.channel a = judged ch (formVerdict ch s.op.settings.increment (decide (x = .proof)))
  pins : ∀ p, (s.channel a).ctx.pin = some p → a ∉ (t.article p.number).pins
  kept : (s.station a).state ≠ .normal → t.copyMap a = s.copyMap a
  emptied : (s.station a).state = .normal → t.copyMap a = [] ∧ (∀ e ∈ s.copyMap a, a ∉ (t.article e.article).holders)
    ∧ ((∃ e ∈ (t.station a).queue, e.msg = .purgeAll) ∨ (t.station a).backlog = .all)
  noted : Noted [.changeSettled] s t

theorem State.MovedInService.pin {s t : State} {a : Nat} {x : StationState} (h : s.MovedInService t a x) :
    (t.channel a).ctx.pin = none := by
  have hch := h.channel
  dsimp only at hch
  rw [hch, judged_ctx]
  split
  · rfl
  · rename_i hp
    simpa using hp

/-- What the SETMODE, and the map where the scale leaves NORMAL, leave before the pin is released. -/
structure State.Shifted (s t : State) (a : Nat) (x : StationState) : Prop where
  frame : Changes [.lc, .cd, .art] s t
  only : StationOnly a s t
  station : ∃ q b o, t.station a = { s.station a with state := x, queue := q, backlog := b, showOwed := o }
  setmode : ∃ e ∈ (t.station a).queue, e.msg = .setmode x false (s.layoutOf a)
  kept : (s.station a).state ≠ .normal → t.copyMap a = s.copyMap a
  emptied : (s.station a).state = .normal → t.copyMap a = [] ∧ (∀ e ∈ s.copyMap a, a ∉ (t.article e.article).holders)
    ∧ ((∃ e ∈ (t.station a).queue, e.msg = .purgeAll) ∨ (t.station a).backlog = .all)

theorem State.shifted (s : State) (a : Nat) {x : StationState} (hx : serving x = true) :
    s.Shifted (if (s.station a).state = .normal then (s.moved a x).purged a else s.moved a x) a x := by
  have hm := s.moved_changes a x
  have hst := s.moved_station a x
  have hcopy : (s.moved a x).copyMap a = s.copyMap a := State.copyMap_of_cd (hm.same .cd rfl) a
  have hmem := placeSetmode_mem (.setmode x false (s.layoutOf a)) (s.station a).queue
  split
  · rename_i hn
    have hin : (s.moved a x).inService a = true := by
      unfold State.inService
      rw [hst]
      exact hx
    have hp := State.purged_station hin
    have hempty : Changes [.lc] ((s.moved a x).emptyMap a) ((s.moved a x).purged a) :=
      State.offerPurgeAll_changes a (Changes.refl _ _) rfl
    refine ⟨?_, (s.moved_only a x).trans (State.purged_only _ a), ?_, ?_, fun h => absurd hn h, fun _ => ⟨?_, fun e he => ?_, ?_⟩⟩
    · exact State.offerPurgeAll_changes a (State.emptyMap_changes a (hm.grow (by simp)) rfl) rfl
    · obtain ⟨q, b, o, hf⟩ := purgeAllOffered_fields ((s.moved a x).verdictMsg a) ((s.moved a x).station a)
      rw [hp, hf, hst]
      exact ⟨_, _, _, rfl⟩
    · rw [hp]
      exact ⟨_, mem_purgeAllOffered _ (by rw [hst]; exact hmem) rfl rfl, rfl⟩
    · rw [State.copyMap_of_cd (hempty.same .cd rfl), State.emptyMap_copyMap, if_pos rfl]
    · rw [State.article_of_art (hempty.same .art rfl)]
      exact (s.moved a x).emptyMap_holders a e (by rw [hcopy]; exact he)
    · rw [hp]
      exact purgeAllOffered_offers _ _
  · rename_i hn
    refine ⟨hm.grow (by simp), s.moved_only a x, ?_, ?_, fun _ => hcopy, fun h => absurd h hn⟩
    · rw [hst]
      exact ⟨_, _, _, rfl⟩
    · rw [hst]
      exact ⟨_, hmem, rfl⟩

theorem State.moveInService_moved (s : State) (a : Nat) {x : StationState} (hx : serving x = true) :
    s.MovedInService (s.moveInService a x) a x := by
  have hs := s.shifted a hx
  obtain ⟨u, hu⟩ : ∃ u, u = if (s.station a).state = .normal then (s.moved a x).purged a else s.moved a x := ⟨_, rfl⟩
  rw [← hu] at hs
  obtain ⟨hframe, honly, ⟨q, b, o, hst⟩, ⟨e, he, hmsg⟩, hkept, hempty⟩ := hs
  obtain ⟨w, hw⟩ : ∃ w, w = (u.unpin a).evaluate a := ⟨_, rfl⟩
  have ht : s.moveInService a x = w.finish (s.shiftTouches a) := by
    rw [hw, hu]
    by_cases hn : (s.station a).state = .normal
    · unfold State.moveInService State.shiftService
      simp only [hn, decide_true, if_true]
      rfl
    · unfold State.moveInService State.shiftService
      simp only [hn, decide_false, if_false, Bool.false_eq_true]
      rfl
  have hunpin : (u.unpin a).station a = u.station a := State.station_of_lc (u.unpin_lc a) a
  have hoffers : Offers a (0 + 1) u w := by
    rw [hw]
    exact (Offers.of_lc (u.unpin_lc a)).trans (State.evaluate_offers _ a)
  have hlc := w.finish_lc (s.shiftTouches a)
  have htst : (w.finish (s.shiftTouches a)).station a = w.station a := State.station_of_lc hlc a
  have hart (n : Nat) : w.article n = (u.unpin a).article n := by rw [hw]; exact State.evaluate_article _ a n
  have hcopy : w.copyMap a = u.copyMap a := by
    rw [hw, State.copyMap_of_cd ((State.evaluate_changes a (Changes.refl [.we, .lc] _) rfl).same .cd rfl), State.unpin_copyMap]
  have hmem {y : Entry} (hy : y ∈ (u.station a).queue) (hv : isVerdict y.msg = false) : y ∈ (w.station a).queue := by
    rw [hw]
    exact State.evaluate_mem (by rw [hunpin]; exact hy) hv
  have hch : u.channel a = s.channel a := State.channel_of_we (hframe.same .we rfl) a
  rw [ht]
  refine ⟨(honly.trans hoffers.only).trans (.of_lc hlc), ?_, ?_, ?_, fun p hp => ?_, fun h => ?_, fun h => ?_, ?_⟩
  · obtain ⟨q', b', o', hk⟩ := hoffers.keeps
    rw [htst, hk, hst]
    exact ⟨_, _, _, rfl⟩
  · rw [htst]
    exact ⟨e, hmem he (by rw [hmsg]; rfl), hmsg⟩
  · intro ch
    have hv : (u.unpin a).verdictOf a = fun c => formVerdict c s.op.settings.increment (decide (x = .proof)) := by
      funext c
      unfold State.verdictOf
      rw [u.unpin_op a, hframe.same .op rfl, hunpin, hst]
    have hc : (u.unpin a).channel a = ch := by
      rw [State.unpin_channel, hch]
      simp [ch]
    rw [State.channel_of_we (w.finish_we _), hw, State.evaluate_channel, hv, hc]
  · rw [State.finish_pins, hart]
    exact State.unpin_pins (by rw [hch]; exact hp)
  · rw [State.finish_copyMap, hcopy, hkept h]
  · obtain ⟨h1, h2, h3⟩ := hempty h
    refine ⟨by rw [State.finish_copyMap, hcopy, h1], fun y hy => ?_, ?_⟩
    · rw [State.finish_holders, hart, State.unpin_holders]
      exact h2 y hy
    · rw [htst]
      refine h3.imp (fun ⟨y, hy, hmy⟩ => ⟨y, hmem hy (by rw [hmy]; rfl), hmy⟩) (fun hb => ?_)
      rw [hw, State.evaluate_backlog, hunpin]
      exact hb
  · have hop : w.op = s.op := by
      rw [hw, (State.evaluate_changes a (Changes.refl [.we, .lc] _) rfl).same .op rfl, u.unpin_op, hframe.same .op rfl]
    exact (Noted.of_op hop).trans (w.finish_noted _)

/-! ## The error score (R6, R7) -/

/-- The station whose score rises to 32 with the detached flag clear. -/
def detachedStation (st : Station) : Station := { st with score := st.score + 4, detachedFlag := true }

/-- The state in which the detachment by the score begins: the flag set, and its notice placed first (R7). -/
def State.flagged (s : State) (a : Nat) : State :=
  (s.setStation a (detachedStation (s.station a))).raise .stationDetached [a, 1]

section
variable {s : State} {a : Nat}

theorem State.flagged_station (s : State) (a : Nat) : (s.flagged a).station a = detachedStation (s.station a) :=
  (State.station_setStation s a a _).trans (if_pos rfl)

theorem State.raiseScore_other (h : kindOf a ≠ .scale) : s.raiseScore a = s := by
  unfold State.raiseScore
  cases hk : kindOf a with
  | scale => exact absurd hk h
  | dispenser => rfl
  | display => rfl

/-- The score rises without a detachment: below 32, from 32 up, or with the flag set already. -/
theorem State.raiseScore_plain (hk : kindOf a = .scale)
    (h : (s.station a).detachedFlag = true ∨ (s.station a).score < 28 ∨ 32 ≤ (s.station a).score) :
    s.raiseScore a = s.setStation a { s.station a with score := min 255 ((s.station a).score + 4) } := by
  unfold State.raiseScore
  rw [hk]
  refine if_neg ?_
  rintro ⟨h1, h2, h3⟩
  rcases h with h | h
  · rw [h] at h3
    cases h3
  · omega

theorem State.raiseScore_detaches (hk : kindOf a = .scale) (hf : (s.station a).detachedFlag = false)
    (h1 : 28 ≤ (s.station a).score) (h2 : (s.station a).score < 32) : s.raiseScore a =
      match (s.station a).state with
      | .normal => (s.flagged a).moveInService a .detached
      | .joining => (s.flagged a).recomputeJoin a
      | _ => s.flagged a := by
  have hmin : min 255 ((s.station a).score + 4) = (s.station a).score + 4 := by omega
  unfold State.raiseScore State.scoreDetach
  rw [hk]
  dsimp only
  rw [if_pos ⟨h2, by omega, hf⟩, hmin]
  simp only [State.station_setStation, if_true, State.setStation_setStation]
  have hflagged : (s.setStation a { s.station a with score := (s.station a).score + 4, detachedFlag := true }).raise
      .stationDetached [a, 1] = s.flagged a := rfl
  rw [hflagged]
  cases (s.station a).state <;> rfl

theorem State.recomputeJoin_joining (h : (s.station a).state = .joining) : s.recomputeJoin a =
    s.setStation a { s.station a with queue := retarget (joinTarget a (s.station a)) (s.station a).queue } := if_pos h

/-- The join SETMODE at the head, rewritten where its target differs (R9). -/
theorem retarget_join (target old : StationState) (join sent : Bool) (layout : Option ScaleLayout) (rest : List Entry) :
    retarget target ({ msg := .setmode old join layout, sent := sent } :: rest) =
      if old = target then { msg := .setmode old join layout, sent := sent } :: rest
      else { msg := .setmode target join layout, sent := false } :: rest := rfl

/-- What the detachment by the score leaves of the station: its queue, backlog and SHOW owed mark aside, the score, the
flag and the state. -/
theorem State.raiseScore_station (hk : kindOf a = .scale) (hf : (s.station a).detachedFlag = false)
    (h1 : 28 ≤ (s.station a).score) (h2 : (s.station a).score < 32) : ∃ q b o, (s.raiseScore a).station a =
      { detachedStation (s.station a) with
        state := if (s.station a).state = .normal then .detached else (s.station a).state
        queue := q, backlog := b, showOwed := o } := by
  have hst := s.flagged_station a
  rw [State.raiseScore_detaches hk hf h1 h2]
  split
  · rename_i hn
    obtain ⟨q, b, o, h⟩ := ((s.flagged a).moveInService_moved a (x := .detached) rfl).station
    rw [h, hst, if_pos hn]
    exact ⟨q, b, o, rfl⟩
  · rename_i hj
    rw [State.recomputeJoin_joining (by rw [hst]; exact hj), State.station_setStation, if_pos rfl, hst,
      if_neg (by rw [hj]; decide)]
    exact ⟨_, _, _, rfl⟩
  · rename_i hn _
    rw [hst, if_neg hn]
    exact ⟨_, _, _, rfl⟩

theorem State.raiseScore_noted (hk : kindOf a = .scale) (hf : (s.station a).detachedFlag = false)
    (h1 : 28 ≤ (s.station a).score) (h2 : (s.station a).score < 32) :
    Noted [.changeSettled] (s.raise .stationDetached [a, 1]) (s.raiseScore a) := by
  have hop : (s.flagged a).op = (s.raise .stationDetached [a, 1]).op := rfl
  rw [State.raiseScore_detaches hk hf h1 h2]
  split
  · exact (Noted.of_op hop).trans ((s.flagged a).moveInService_moved a (x := .detached) rfl).noted
  · exact .of_op (((State.recomputeJoin_changes a (Changes.refl [.lc] _) rfl).same .op rfl).trans hop)
  · exact .of_op hop

end

/-! ## What a move out of NORMAL queues (R17, R21) -/

/-- The four places of an in-service SETMODE. -/
theorem State.offerSetmode_places (s : State) (a : Nat) :
    let st := s.station a
    let new : Entry := { msg := .setmode st.state false (s.layoutOf a), sent := false }
    let rewritten (q : List Entry) : Prop := s.offerSetmode a = s.setStation a { st with queue := q }
    (∀ l e r, st.queue = l ++ e :: r → unsent isSetmode e = true → (∀ x ∈ l, unsent isSetmode x = false) →
      rewritten (l ++ new :: r))
    ∧ ((∀ x ∈ st.queue, unsent isSetmode x = false) →
        (st.queue = [] → rewritten [new])
        ∧ ∀ e r, st.queue = e :: r → (e.sent = true → rewritten (e :: new :: r))
          ∧ (e.sent = false → rewritten (new :: e :: r))) := by
  intro st new rewritten
  have place {q : List Entry} (h : placeSetmode new.msg st.queue = q) : rewritten q := by
    show s.offerSetmode a = _
    rw [← h]
    rfl
  refine ⟨fun l e r hq he hl => place ?_, fun hn => ⟨fun hq => place ?_, fun e r hq => ⟨fun hs => place ?_, fun hs => place ?_⟩⟩⟩
  · rw [hq]
    exact placeSetmode_replaces he hl
  · rw [hq]
    rfl
  all_goals rw [hq, placeSetmode_new (by rw [← hq]; exact hn), hs]
  · rfl
  · rfl

/-- Settles O37. -/
theorem scoreDetaches : Obligations.ScoreDetaches := by
  refine ⟨fun s a ha hf h1 h2 => ?_, fun s a => ?_⟩
  · have hk := isScale_kind ha
    obtain ⟨q, b, o, hst⟩ := State.raiseScore_station hk hf h1 h2
    have hst0 := s.flagged_station a
    refine ⟨by rw [hst]; rfl, by rw [hst]; rfl, fun hn => ?_, fun hn => by rw [hst, if_neg hn], ?_, fun ho hl => ?_⟩
    · have hd : s.raiseScore a = (s.flagged a).moveInService a .detached := by
        rw [State.raiseScore_detaches hk hf h1 h2, hn]
      have hm := (s.flagged a).moveInService_moved a (x := .detached) rfl
      obtain ⟨hmap, -, hpurge⟩ := hm.emptied (by rw [hst0]; exact hn)
      refine ⟨by rw [hst, if_pos hn], ?_⟩
      rw [hd]
      exact ⟨hmap, hm.pin, hm.setmode, hpurge⟩
    · intro old layout sent rest hj hq target
      have ht : joinTarget a (detachedStation (s.station a)) = target := by
        unfold joinTarget
        rw [hk]
        rfl
      rw [State.raiseScore_detaches hk hf h1 h2, hj]
      dsimp only
      rw [State.recomputeJoin_joining (by rw [hst0]; exact hj), State.station_setStation, if_pos rfl, hst0, ht, hq]
      show retarget target (s.station a).queue = _
      rw [hq]
      exact retarget_join _ _ _ _ _ _
    · exact (State.raiseScore_noted hk hf h1 h2).first ho hl
  · obtain ⟨hreplaces, hplaces⟩ := s.offerSetmode_places a
    refine ⟨hreplaces, hplaces, fun h => ?_, fun h => ?_⟩
    · unfold State.offerPurgeAll
      rw [h]
      rfl
    · intro kept all
      rw [State.offerPurgeAll_station h]
      exact ⟨fun hk => by rw [purgeAllOffered_full _ hk]; rfl, fun hk ho => by rw [purgeAllOffered_placed _ hk ho]; rfl,
        fun hk ho => by rw [purgeAllOffered_owed _ hk ho]; rfl⟩

end Sys2Proof.Machine
end

section
/-! A scale that leaves service, the third miss that takes it there, and the ends of visits (R3 to R6, R10, R47, R105, R133,
R147). -/

namespace Sys2Proof.Machine

/-! ## The print jobs of a scale that leaves (R147) -/

theorem ticketDeparted_printing {a : Nat} {k : Ticket} {job : PrintJob} (h : k.state = .printing job) :
    ticketDeparted a k = if job.scale = a then waiting k else k := by
  unfold ticketDeparted
  rw [h]
  rfl

theorem ticketDeparted_other {a : Nat} {k : Ticket} (h : ∀ job, k.state ≠ .printing job) : ticketDeparted a k = k := by
  unfold ticketDeparted
  split <;> first | rfl | (rename_i job hs; exact absurd hs (h job))

section
variable {s : State} {a : Nat} {k : Ticket} {rest : List Ticket}

theorem State.failJobs_job {job : PrintJob} (h : k.state = .printing job) (ha : job.scale = a) :
    s.failJobs a (k :: rest) = (s.failJob k a job.tag 3).failJobs a rest := by
  rw [State.failJobs, h]
  exact if_pos ha

/-- A ticket without a print job at the scale is passed over. -/
theorem State.failJobs_skip (h : ∀ job, k.state = .printing job → job.scale ≠ a) :
    s.failJobs a (k :: rest) = s.failJobs a rest ∧ ticketDeparted a k = k := by
  rw [State.failJobs]
  cases hk : k.state with
  | printing job =>
    rw [ticketDeparted_printing hk]
    exact ⟨if_neg (h job hk), if_neg (h job hk)⟩
  | _ => exact ⟨rfl, ticketDeparted_other (by rw [hk]; simp)⟩

end

theorem replaceTicket_at {k : Ticket} {l r : List Ticket} (x : Ticket) (hx : x.number = k.number)
    (h : ((l ++ k :: r).map (·.number)).Nodup) : replaceTicket x (l ++ k :: r) = l ++ x :: r := by
  simp only [List.map_append, List.map_cons] at h
  obtain ⟨-, hkr, hdis⟩ := List.nodup_append.mp h
  obtain ⟨hkr, -⟩ := List.nodup_cons.mp hkr
  have away {y : Ticket} (hy : y.number ≠ k.number) : (if y.number = x.number then x else y) = y :=
    if_neg (by rw [hx]; exact hy)
  have hl : l.map (fun y => if y.number = x.number then x else y) = l := by
    refine (List.map_congr_left (fun y hy => away ?_)).trans (List.map_id l)
    exact hdis _ (List.mem_map_of_mem hy) _ (by simp)
  have hr : r.map (fun y => if y.number = x.number then x else y) = r := by
    refine (List.map_congr_left (fun y hy => away ?_)).trans (List.map_id r)
    intro he
    exact hkr (he ▸ List.mem_map_of_mem hy)
  unfold replaceTicket
  rw [List.map_append, List.map_cons, hl, hr, if_pos hx.symm]

/-- The tickets after the jobs of a scale have ended, no two of one number. -/
theorem State.failJobs_tickets (a : Nat) (l done : List Ticket) (s : State) (hs : s.sc.tickets = done ++ l)
    (hn : (s.sc.tickets.map (·.number)).Nodup) :
    (s.failJobs a l).sc.tickets = done ++ l.map (ticketDeparted a) := by
  induction l generalizing done s with
  | nil => exact hs
  | cons k rest ih =>
    by_cases hk : ∃ job, k.state = .printing job ∧ job.scale = a
    · obtain ⟨job, hk, ha⟩ := hk
      rw [State.failJobs_job hk ha, List.map_cons, ticketDeparted_printing hk, if_pos ha]
      have ht : (s.failJob k a job.tag 3).sc.tickets = (done ++ [waiting k]) ++ rest := by
        rw [State.failJob_sc]
        show replaceTicket (waiting k) s.sc.tickets = _
        rw [hs, replaceTicket_at (k := k) (waiting k) rfl (by rw [← hs]; exact hn), List.append_assoc]
        rfl
      rw [ih (done ++ [waiting k]) _ ht, List.append_assoc]
      · rfl
      · rw [State.failJob_sc]
        dsimp only
        rw [replaceTicket_numbers]
        exact hn
    · obtain ⟨hskip, hsame⟩ := State.failJobs_skip (s := s) (rest := rest) (a := a) (k := k)
        (fun job hj ha => hk ⟨job, hj, ha⟩)
      rw [hskip, List.map_cons, hsame, ih (done ++ [k]) s (by rw [hs]; simp) hn, List.append_assoc]
      rfl

theorem State.failJob_noted (s : State) (k : Ticket) (a tag cause : Nat) :
    Noted [.printFailed] s (s.failJob k a tag cause) :=
  (Noted.of_op (t := s.putTicket (waiting k)) rfl).trans (Noted.raise _ _ (by simp))

theorem State.failJobs_noted (a : Nat) (l : List Ticket) (s : State) : Noted [.printFailed] s (s.failJobs a l) := by
  induction l generalizing s with
  | nil => exact .of_op rfl
  | cons k rest ih =>
    by_cases hk : ∃ job, k.state = .printing job ∧ job.scale = a
    · obtain ⟨job, hk, ha⟩ := hk
      rw [State.failJobs_job hk ha]
      exact (s.failJob_noted k a job.tag 3).trans (ih _)
    · rw [(State.failJobs_skip (fun job hj ha => hk ⟨job, hj, ha⟩)).1]
      exact ih s

/-- Every job that ends has its PRINT_FAILED, where the FIFO has room to the end. -/
theorem State.failJobs_notices (a : Nat) (l : List Ticket) (s : State) (ho : (s.failJobs a l).op.overflow = false) :
    ∀ k ∈ l, ∀ job, k.state = .printing job → job.scale = a →
      { kind := .printFailed, time := s.op.clock, subjects := [k.number, k.clerk, a, job.tag, 3] } ∈
        (s.failJobs a l).op.fifo := by
  induction l generalizing s with
  | nil => simp
  | cons x rest ih =>
    intro k hk job hj ha
    by_cases hx : ∃ job, x.state = .printing job ∧ job.scale = a
    · obtain ⟨j, hxj, hxa⟩ := hx
      rw [State.failJobs_job hxj hxa] at ho ⊢
      rcases List.mem_cons.mp hk with rfl | hk
      · obtain rfl : j = job := by
          rw [hxj] at hj
          exact TicketState.printing.inj hj
        have hfirst : Noted [.printFailed] ((s.putTicket (waiting k)).raise .printFailed [k.number, k.clerk, a, j.tag, 3])
            ((s.failJob k a j.tag 3).failJobs a rest) := State.failJobs_noted a rest _
        exact hfirst.raised_mem ho
      · have := ih _ ho k hk job hj ha
        rwa [(s.failJob_noted x a j.tag 3).clock] at this
    · have hskip := (State.failJobs_skip (s := s) (rest := rest) (a := a) (k := x) (fun job hj ha => hx ⟨job, hj, ha⟩)).1
      rw [hskip] at ho ⊢
      rcases List.mem_cons.mp hk with rfl | hk
      · exact absurd ⟨job, hj, ha⟩ hx
      · exact ih s ho k hk job hj ha

/-- The jobs of a scale end in the tickets alone: the clerks and the print records stay. -/
theorem State.failJobs_records (a : Nat) (l : List Ticket) (s : State) :
    (s.failJobs a l).sc.clerks = s.sc.clerks ∧ (s.failJobs a l).sc.prints = s.sc.prints := by
  induction l generalizing s with
  | nil => exact ⟨rfl, rfl⟩
  | cons k rest ih =>
    by_cases hk : ∃ job, k.state = .printing job ∧ job.scale = a
    · obtain ⟨job, hk, ha⟩ := hk
      rw [State.failJobs_job hk ha]
      exact ih _
    · rw [(State.failJobs_skip (fun job hj ha => hk ⟨job, hj, ha⟩)).1]
      exact ih s

/-! ## The clerk of a scale logged out (R113) -/

theorem State.logoutScale_clerk (s : State) (a c : Nat) : (s.logoutScale a).clerk c =
    if s.clerkAt a = some c then { s.clerk c with scale := none } else s.clerk c := by
  unfold State.logoutScale
  cases h : s.clerkAt a with
  | none => rfl
  | some d =>
    have hm : ((s.setClerk d { s.clerk d with scale := none }).mirror a none none).clerk c =
        (s.setClerk d { s.clerk d with scale := none }).clerk c := rfl
    dsimp only
    rw [hm, State.clerk_setClerk]
    by_cases hc : c = d
    · subst hc
      rw [if_pos rfl, if_pos rfl]
    · rw [if_neg hc, if_neg (by simpa using Ne.symm hc)]

/-- The logout reaches the scale's service context alone, and leaves its configuration and its pin. -/
theorem State.logoutScale_channel (s : State) (a : Nat) :
    ((s.logoutScale a).channel a).config = (s.channel a).config
    ∧ ((s.logoutScale a).channel a).ctx.pin = (s.channel a).ctx.pin
    ∧ ∀ b, b ≠ a → (s.logoutScale a).channel b = s.channel b := by
  unfold State.logoutScale
  split
  · rename_i c _
    have hm (b : Nat) : ((s.setClerk c { s.clerk c with scale := none }).mirror a none none).channel b =
        if b = a then { s.channel a with ctx := { (s.channel a).ctx with clerk := none, activeTicket := none } }
        else s.channel b := State.channel_setChannel _ a b _
    rw [hm, if_pos rfl]
    exact ⟨rfl, rfl, fun b hb => by rw [hm, if_neg hb]⟩
  · exact ⟨rfl, rfl, fun _ _ => rfl⟩

theorem State.logoutScale_records (s : State) (a : Nat) :
    (s.logoutScale a).sc.tickets = s.sc.tickets ∧ (s.logoutScale a).sc.prints = s.sc.prints := by
  unfold State.logoutScale
  split <;> exact ⟨rfl, rfl⟩

/-! ## The departure (R10) -/

/-- A departing scale before its settle checks: the clerk logged out, the map emptied, the pin dropped and the channel
emptied (R47). -/
def State.vacated (s : State) (a : Nat) : State :=
  let t := ((s.logoutScale a).emptyMap a).unpin a
  t.setChannel a (emptied (t.channel a))

theorem State.departScale_eq (s : State) (a : Nat) : s.departScale a =
    ((s.vacated a).finish (s.mapTouches a ++ s.unpinTouches a)).departJobs a := rfl

theorem State.departJobs_eq (s : State) (a : Nat) : s.departJobs a =
    (s.setPrintRecord a { s.printRecord a with lastProof := none }).failJobs a s.sc.tickets := rfl

theorem State.vacated_channel (s : State) (a : Nat) : (s.vacated a).channel a = emptied (s.channel a)
    ∧ ∀ b, b ≠ a → (s.vacated a).channel b = s.channel b := by
  obtain ⟨hconfig, -, hother⟩ := s.logoutScale_channel a
  have hm (b : Nat) : ((s.logoutScale a).emptyMap a).channel b = (s.logoutScale a).channel b :=
    State.channel_of_we ((State.emptyMap_changes a (Changes.refl [.cd, .art] _) rfl).same .we rfl) b
  have hconfig' : ((((s.logoutScale a).emptyMap a).unpin a).channel a).config = (s.channel a).config := by
    rw [State.unpin_channel, hm]
    split
    · exact hconfig
    · exact hconfig
  unfold State.vacated
  dsimp only
  refine ⟨?_, fun b hb => ?_⟩
  · rw [State.channel_setChannel, if_pos rfl]
    unfold emptied
    rw [hconfig']
  · rw [State.channel_setChannel, if_neg hb, State.unpin_channel, if_neg (fun h => hb h.1), hm, hother b hb]

theorem State.vacated_copies (s : State) (a : Nat) : (s.vacated a).copyMap a = []
    ∧ (∀ b, b ≠ a → (s.vacated a).copyMap b = s.copyMap b)
    ∧ (∀ e ∈ s.copyMap a, a ∉ ((s.vacated a).article e.article).holders)
    ∧ ∀ p, (s.channel a).ctx.pin = some p → a ∉ ((s.vacated a).article p.number).pins := by
  have hl := State.logoutScale_changes a (Changes.refl [.sc, .we] s) rfl
  have hm := State.emptyMap_changes a (Changes.refl [.cd, .art] (s.logoutScale a)) rfl
  have hcopy (b : Nat) : (s.vacated a).copyMap b = if b = a then [] else s.copyMap b := by
    have h1 : (s.vacated a).copyMap b = (((s.logoutScale a).emptyMap a).unpin a).copyMap b := rfl
    rw [h1, State.unpin_copyMap, State.emptyMap_copyMap, State.copyMap_of_cd (hl.same .cd rfl)]
  have hart (n : Nat) : (s.vacated a).article n = (((s.logoutScale a).emptyMap a).unpin a).article n := rfl
  refine ⟨by rw [hcopy, if_pos rfl], fun b hb => by rw [hcopy, if_neg hb], fun e he => ?_, fun p hp => ?_⟩
  · rw [hart, State.unpin_holders]
    exact (s.logoutScale a).emptyMap_holders a e (by rw [State.copyMap_of_cd (hl.same .cd rfl)]; exact he)
  · rw [hart]
    refine State.unpin_pins ?_
    rw [State.channel_of_we (hm.same .we rfl), (s.logoutScale_channel a).2.1]
    exact hp

theorem State.vacated_service (s : State) (a : Nat) : (s.vacated a).sc = (s.logoutScale a).sc
    ∧ (s.vacated a).op = s.op := by
  have hl := State.logoutScale_changes a (Changes.refl [.sc, .we] s) rfl
  have hm := State.emptyMap_changes a (Changes.refl [.cd, .art] (s.logoutScale a)) rfl
  have hu := State.unpin_changes a (Changes.refl [.we, .art] ((s.logoutScale a).emptyMap a)) rfl
  constructor
  · show (((s.logoutScale a).emptyMap a).unpin a).sc = _
    rw [hu.same .sc rfl, hm.same .sc rfl]
  · show (((s.logoutScale a).emptyMap a).unpin a).op = _
    rw [hu.same .op rfl, hm.same .op rfl, hl.same .op rfl]

theorem State.departScale_noted (s : State) (a : Nat) : Noted [.changeSettled, .printFailed] s (s.departScale a) := by
  rw [State.departScale_eq, State.departJobs_eq]
  obtain ⟨u, hu⟩ : ∃ u, u = (s.vacated a).finish (s.mapTouches a ++ s.unpinTouches a) := ⟨_, rfl⟩
  have hvacated : Noted [.changeSettled, .printFailed] s (s.vacated a) := .of_op (s.vacated_service a).2
  have hfinish : Noted [.changeSettled, .printFailed] (s.vacated a) u := by
    rw [hu]
    exact (State.finish_noted _ _).mono (by simp)
  have hprint : Noted [.changeSettled, .printFailed] u (u.setPrintRecord a { u.printRecord a with lastProof := none }) :=
    .of_op rfl
  rw [← hu]
  exact hvacated.trans (hfinish.trans (hprint.trans ((State.failJobs_noted a _ _).mono (by simp))))

/-- R10: what a scale's departure leaves. -/
theorem State.departScale_left (s : State) (a : Nat) : s.LeftService (s.departScale a) a := by
  obtain ⟨u, hu⟩ : ∃ u, u = (s.vacated a).finish (s.mapTouches a ++ s.unpinTouches a) := ⟨_, rfl⟩
  obtain ⟨w, hw⟩ : ∃ w, w = u.setPrintRecord a { u.printRecord a with lastProof := none } := ⟨_, rfl⟩
  have ht : s.departScale a = w.failJobs a u.sc.tickets := by
    rw [State.departScale_eq, ← hu, State.departJobs_eq, hw]
  obtain ⟨hsc, hop⟩ := s.vacated_service a
  obtain ⟨htickets, hprints⟩ := s.logoutScale_records a
  obtain ⟨hclerks', hprints'⟩ := State.failJobs_records a u.sc.tickets w
  obtain ⟨hmap, hmaps, hholders, hpins⟩ := s.vacated_copies a
  obtain ⟨hchannel, hchannels⟩ := s.vacated_channel a
  have husc : u.sc = (s.logoutScale a).sc := by rw [hu, State.finish_sc, hsc]
  have hutickets : u.sc.tickets = s.sc.tickets := by rw [husc, htickets]
  have hnoted : Noted [.changeSettled] s u := by
    rw [hu]
    exact (Noted.of_op hop).trans (State.finish_noted _ _)
  have hwop : w.op = u.op := by rw [hw]; rfl
  have hfail := State.failJobs_changes a u.sc.tickets (Changes.refl [.sc, .op] w) rfl
  have hclerk (c : Nat) : (w.failJobs a u.sc.tickets).clerk c = (s.logoutScale a).clerk c := by
    unfold State.clerk
    rw [hclerks', hw]
    show Tbl.read _ u.sc.clerks c = _
    rw [husc]
  have hch (b : Nat) : (w.failJobs a u.sc.tickets).channel b = (s.vacated a).channel b := by
    rw [State.channel_of_we (hfail.same .we rfl), hw]
    show u.channel b = _
    rw [hu]
    exact State.channel_of_we (State.finish_we _ _) b
  have hcopy (b : Nat) : (w.failJobs a u.sc.tickets).copyMap b = (s.vacated a).copyMap b := by
    rw [State.copyMap_of_cd (hfail.same .cd rfl), hw]
    show u.copyMap b = _
    rw [hu, State.finish_copyMap]
  have hart (n : Nat) : (w.failJobs a u.sc.tickets).article n = u.article n := by
    rw [State.article_of_art (hfail.same .art rfl), hw]
    rfl
  rw [ht]
  refine ⟨fun c hc => ?_, fun c hc => ?_, ?_, fun b hb => ?_, ⟨?_, fun b hb => ?_⟩, fun e he => ?_, fun p hp => ?_,
    fun hn => ?_, ?_, fun ho k hk job hj ha => ?_⟩
  · rw [hclerk, State.logoutScale_clerk, if_pos hc]
  · rw [hclerk, State.logoutScale_clerk, if_neg hc]
  · rw [hch, hchannel]
    rfl
  · rw [hch, hchannels b hb]
  · rw [hcopy, hmap]
  · rw [hcopy, hmaps b hb]
  · rw [hart, hu, State.finish_holders]
    exact hholders e he
  · rw [hart, hu, State.finish_pins]
    exact hpins p hp
  · have hwt : w.sc.tickets = s.sc.tickets := by rw [hw]; exact hutickets
    rw [State.failJobs_tickets a u.sc.tickets [] w (by rw [hwt, hutickets]; rfl), hutickets]
    · rfl
    · rw [hwt]
      exact (List.pairwise_map.mpr hn.1).imp (fun h => by omega)
  · have hwp : w.printRecord a = { u.printRecord a with lastProof := none } := by
      rw [hw, State.printRecord_setPrintRecord, if_pos rfl]
    have hup : u.printRecord a = s.printRecord a := by
      unfold State.printRecord
      rw [husc, hprints]
    have hwf : (w.failJobs a u.sc.tickets).printRecord a = w.printRecord a := by
      unfold State.printRecord
      rw [hprints']
    rw [hwf, hwp, hup]
  · rw [← hutickets] at hk
    have hmem := State.failJobs_notices a u.sc.tickets w ho k hk job hj ha
    rwa [hwop, hnoted.clock] at hmem

/-- The facts of a departure read the blocks that hold state for the scale, the clock and the FIFO. -/
theorem State.LeftService.congr {s s' t t' : State} {a : Nat} (h : s.LeftService t a) (hs : Changes [.lc, .op] s' s)
    (hclock : s'.op.clock = s.op.clock) (ht : Changes [.lc, .op] t t') (hfifo : t'.op.fifo = t.op.fifo)
    (hover : t'.op.overflow = t.op.overflow) : s'.LeftService t' a := by
  have ssc : s'.sc = s.sc := (hs.same .sc rfl).symm
  have tsc : t'.sc = t.sc := ht.same .sc rfl
  have swe : s'.we = s.we := (hs.same .we rfl).symm
  have twe : t'.we = t.we := ht.same .we rfl
  have scd : s'.cd = s.cd := (hs.same .cd rfl).symm
  have tcd : t'.cd = t.cd := ht.same .cd rfl
  have tart : t'.art = t.art := ht.same .art rfl
  have hat : s'.clerkAt a = s.clerkAt a := State.clerkAt_of_we swe a
  refine ⟨fun c hc => ?_, fun c hc => ?_, ?_, fun b hb => ?_, ⟨?_, fun b hb => ?_⟩, fun e he => ?_, fun p hp => ?_,
    fun hn => ?_, ?_, fun ho k hk job hj ha => ?_⟩
  · rw [State.clerk_of_sc tsc, State.clerk_of_sc ssc]
    exact h.clerk c (hat ▸ hc)
  · rw [State.clerk_of_sc tsc, State.clerk_of_sc ssc]
    exact h.clerks c (hat ▸ hc)
  · rw [State.channel_of_we twe, State.channel_of_we swe]
    exact h.channel
  · rw [State.channel_of_we twe, State.channel_of_we swe]
    exact h.channels b hb
  · rw [State.copyMap_of_cd tcd]
    exact h.copies.1
  · rw [State.copyMap_of_cd tcd, State.copyMap_of_cd scd]
    exact h.copies.2 b hb
  · rw [State.article_of_art tart]
    exact h.holders e (by rw [← State.copyMap_of_cd scd]; exact he)
  · rw [State.article_of_art tart]
    exact h.pins p (by rw [← State.channel_of_we swe]; exact hp)
  · rw [tsc, ssc]
    refine h.tickets ?_
    unfold State.numbersSound at hn ⊢
    rwa [ssc] at hn
  · rw [State.printRecord_of_sc tsc, State.printRecord_of_sc ssc]
    exact h.prints
  · rw [hfifo, hclock]
    rw [ssc] at hk
    exact h.failed (hover ▸ ho) k hk job hj ha

/-! ## A station of any kind leaves service (R10) -/

/-- A station's record after leaving service, before the other blocks are looked at. -/
def State.leaving (s : State) (a : Nat) (x : StationState) : State := s.setStation a (departed (s.station a) x)

/-- What leaving service for the state x leaves (R10). -/
structure State.Gone (s t : State) (a : Nat) (x : StationState) : Prop where
  lc : t.lc = (s.leaving a x).lc
  noted : Noted [.changeSettled, .printFailed] s t
  left : kindOf a = .scale → s.LeftService t a
  quiet : kindOf a ≠ .scale → Changes [.lc] s t

theorem State.leaveService_eq (s : State) (a : Nat) (x : StationState) : s.leaveService a x =
    if kindOf a = .scale then (s.leaving a x).departScale a else s.leaving a x := by
  unfold State.leaveService
  cases kindOf a <;> rfl

theorem State.leaveService_gone (s : State) (a : Nat) (x : StationState) : s.Gone (s.leaveService a x) a x := by
  have hl : Changes [.lc] s (s.leaving a x) := State.setStation_changes _ _ (Changes.refl _ s) rfl
  have hop : (s.leaving a x).op = s.op := rfl
  rw [State.leaveService_eq]
  split
  · rename_i hk
    have hd := State.departScale_changes a (Changes.refl [.sc, .we, .art, .cd, .op] (s.leaving a x)) rfl
    refine ⟨hd.same .lc rfl, (Noted.of_op hop).trans ((s.leaving a x).departScale_noted a), fun _ => ?_,
      fun h => absurd hk h⟩
    exact ((s.leaving a x).departScale_left a).congr (hl.grow (by simp)) rfl (Changes.refl _ _) rfl rfl
  · rename_i hk
    exact ⟨rfl, .of_op hop, fun h => absurd h hk, fun _ => hl⟩

end Sys2Proof.Machine
end

section
/-! The ends of visits: the reply window, misses, and replies that fail their check (R3 to R6). -/

namespace Sys2Proof.Machine

/-! ## A miss (R6) -/

/-- A station's record after a miss. -/
def missed (st : Station) : Station := if st.miss < 2 then { st with miss := st.miss + 1 } else departed st .absent

theorem missed_score (st : Station) : (missed st).score = st.score := by
  unfold missed
  split <;> rfl

theorem missed_few {st : Station} (h : st.miss < 2) : missed st = { st with miss := st.miss + 1 } := if_pos h

theorem missed_third {st : Station} (h : 2 ≤ st.miss) : missed st = departed st .absent := if_neg (by omega)

theorem missed_miss (st : Station) : (missed st).miss = if st.miss < 2 then st.miss + 1 else 0 := by
  unfold missed
  split <;> rfl

/-- The state in which a station goes ABSENT: its STATION_DOWN placed first where it was in service (R6). -/
def State.downed (s : State) (a : Nat) : State := if s.inService a then s.raise .stationDown [a] else s

theorem State.downed_lc (s : State) (a : Nat) : (s.downed a).lc = s.lc := by
  unfold State.downed
  split <;> rfl

theorem State.downed_noted (s : State) (a : Nat) : Noted [.stationDown] s (s.downed a) := by
  unfold State.downed
  split
  · exact .raise _ _ (by simp)
  · exact .of_op rfl

theorem State.downed_changes (s : State) (a : Nat) : Changes [.op] s (s.downed a) := by
  unfold State.downed
  split
  · exact State.raise_changes _ _ (Changes.refl _ s) rfl
  · exact Changes.refl _ s

theorem State.goAbsent_gone (s : State) (a : Nat) : (s.downed a).Gone (s.goAbsent a) a .absent :=
  (s.downed a).leaveService_gone a .absent

section
variable {s : State} {a : Nat}

theorem State.miss_few (h : (s.station a).miss < 2) : s.miss a = s.setStation a (missed (s.station a)) := by
  rw [missed_few h]
  exact if_neg (by omega)

theorem State.miss_third (h : 2 ≤ (s.station a).miss) : s.miss a = s.goAbsent a := if_pos (by omega)

/-- A miss leaves the Line Controller as if it wrote the station's record alone. -/
theorem State.miss_lc (s : State) (a : Nat) : (s.miss a).lc = (s.setStation a (missed (s.station a))).lc := by
  by_cases h : (s.station a).miss < 2
  · rw [State.miss_few h]
  · have h3 : 2 ≤ (s.station a).miss := by omega
    have hst : (s.downed a).station a = s.station a := State.station_of_lc (s.downed_lc a) a
    rw [State.miss_third h3, (s.goAbsent_gone a).lc, missed_third h3]
    unfold State.leaving State.setStation
    rw [hst, s.downed_lc a]

theorem State.miss_noted (s : State) (a : Nat) :
    Noted [.stationDown, .changeSettled, .printFailed] s (s.miss a) := by
  by_cases h : (s.station a).miss < 2
  · rw [State.miss_few h]
    exact .of_op rfl
  · rw [State.miss_third (by omega)]
    exact ((s.downed_noted a).mono (by simp)).trans ((s.goAbsent_gone a).noted.mono (by simp))

end

/-! ## The end of a visit that had no good reply (R3, R6) -/

/-- A miss, unless the visit is a probe (R6). -/
def State.unanswered (s : State) (v : Visit) : State := if v.probe then s else s.miss v.station

/-- The station's record after such a visit. -/
def unansweredStation (v : Visit) (st : Station) : Station := if v.probe then st else missed st

/-- What the end of such a visit leaves: the station's record, but for one mark "sent", the count of slots and the
time base. -/
structure State.VisitFailed (s t : State) (v : Visit) : Prop where
  station : ∃ q, t.station v.station = { unansweredStation v (s.station v.station) with queue := q }
    ∧ (polled (unansweredStation v (s.station v.station)).state = false →
        q = (unansweredStation v (s.station v.station)).queue)
  slotCount : t.lc.slotCount = if 8 ≤ s.lc.slotCount then 1 else s.lc.slotCount + 1
  now : t.op.now = s.op.now

theorem State.unanswered_ends (s : State) (v : Visit) :
    s.VisitFailed (State.nextSlot (State.endVisit (s.unanswered v))) v := by
  obtain ⟨u, hu⟩ : ∃ u, u = s.unanswered v := ⟨_, rfl⟩
  have hlc : u.lc = (s.setStation v.station (unansweredStation v (s.station v.station))).lc ∨ u = s ∧ v.probe = true := by
    rw [hu]
    unfold State.unanswered unansweredStation
    cases v.probe with
    | true => exact .inr ⟨rfl, rfl⟩
    | false => exact .inl (s.miss_lc v.station)
  have hst : u.station v.station = unansweredStation v (s.station v.station) := by
    rcases hlc with h | ⟨h, hp⟩
    · rw [State.station_of_lc h, State.station_setStation, if_pos rfl]
    · rw [h]
      exact (if_pos hp).symm
  have hcount : u.lc.slotCount = s.lc.slotCount := by
    rcases hlc with h | ⟨h, -⟩
    · rw [h]
      rfl
    · rw [h]
  have hnow : u.op.now = s.op.now := by
    rw [hu]
    unfold State.unanswered
    split
    · rfl
    · exact (s.miss_noted v.station).now
  rw [← hu]
  obtain ⟨q, hq, -, hsame⟩ := u.closed_station v.station
  rw [hst] at hq hsame
  refine ⟨⟨q, hq, hsame⟩, ?_, by rw [u.closed_changes.same .op rfl, hnow]⟩
  rw [State.nextSlot_slotCount, ← hcount]
  rfl

section
variable {s t : State} {v : Visit}

theorem State.VisitFailed.score (h : s.VisitFailed t v) : (t.station v.station).score = (s.station v.station).score := by
  obtain ⟨q, hq, -⟩ := h.station
  rw [hq]
  unfold unansweredStation
  split
  · rfl
  · exact missed_score _

theorem State.VisitFailed.probe (h : s.VisitFailed t v) (hp : v.probe = true) :
    (t.station v.station).state = (s.station v.station).state ∧ (t.station v.station).miss = (s.station v.station).miss := by
  obtain ⟨q, hq, -⟩ := h.station
  rw [hq]
  unfold unansweredStation
  rw [if_pos hp]
  exact ⟨rfl, rfl⟩

theorem State.VisitFailed.miss (h : s.VisitFailed t v) (hp : v.probe = false) : (t.station v.station).miss =
    if (s.station v.station).miss < 2 then (s.station v.station).miss + 1 else 0 := by
  obtain ⟨q, hq, -⟩ := h.station
  rw [hq]
  unfold unansweredStation
  rw [if_neg (by rw [hp]; simp)]
  exact missed_miss _

theorem State.VisitFailed.few (h : s.VisitFailed t v) (hp : v.probe = false) (hm : (s.station v.station).miss < 2) :
    (t.station v.station).state = (s.station v.station).state
    ∧ (t.station v.station).miss = (s.station v.station).miss + 1 := by
  obtain ⟨q, hq, -⟩ := h.station
  rw [hq]
  unfold unansweredStation
  rw [if_neg (by rw [hp]; simp), missed_few hm]
  exact ⟨rfl, rfl⟩

theorem State.VisitFailed.third (h : s.VisitFailed t v) (hp : v.probe = false) (hm : 2 ≤ (s.station v.station).miss) :
    t.station v.station = departed (s.station v.station) .absent := by
  obtain ⟨q, hq, hsame⟩ := h.station
  have hu : unansweredStation v (s.station v.station) = departed (s.station v.station) .absent := by
    unfold unansweredStation
    rw [if_neg (by rw [hp]; simp), missed_third hm]
  rw [hu] at hq hsame
  rw [hq, hsame rfl]

/-- The third miss reaches the other blocks of a scale as its leaving service does, and the dispenser's and the display's
no other block. -/
theorem State.third_blocks (s : State) {a : Nat} {u : State} (hs : Changes [.op] s u) (hclock : u.op.clock = s.op.clock) :
    let t := State.nextSlot (State.endVisit (u.goAbsent a))
    (kindOf a = .scale → s.LeftService t a) ∧ (kindOf a ≠ .scale → Changes [.lc, .op] s t) := by
  intro t
  have hg := u.goAbsent_gone a
  have hd : Changes [.op] s (u.downed a) := hs.trans (u.downed_changes a)
  have ht : Changes [.lc, .op] (u.goAbsent a) t := (State.closed_changes _).grow (by simp)
  have hop : t.op = (u.goAbsent a).op := (State.closed_changes _).same .op rfl
  refine ⟨fun hk => ?_, fun hk => ?_⟩
  · exact (hg.left hk).congr (hd.grow (by simp)) (hclock.symm.trans (u.downed_noted a).clock.symm) ht (by rw [hop]) (by rw [hop])
  · exact ((hd.grow (by simp)).both ((hg.quiet hk).grow (by simp))).both ht

theorem State.third_down (s : State) {a : Nat} (ha : s.inService a = true) (ho : s.op.overflow = false)
    (hl : s.op.fifo.length < 32) : (s.goAbsent a).op.fifo.take (s.op.fifo.length + 1) =
      s.op.fifo ++ [{ kind := .stationDown, time := s.op.clock, subjects := [a] }] := by
  have hg := (s.goAbsent_gone a).noted
  have hd : s.downed a = s.raise .stationDown [a] := if_pos ha
  rw [hd] at hg
  exact hg.first ho hl

theorem State.third_quiet (s : State) {a : Nat} (ha : s.inService a = false) :
    ∀ x ∈ (s.goAbsent a).op.fifo.drop s.op.fifo.length, x.kind ≠ .stationDown := by
  have hg := (s.goAbsent_gone a).noted
  have hd : s.downed a = s := if_neg (by rw [ha]; simp)
  rw [hd] at hg
  obtain ⟨more, hfifo, hkinds⟩ := hg.fifo
  intro x hx
  rw [hfifo, List.drop_left] at hx
  have := hkinds x hx
  intro he
  rw [he] at this
  simp at this

end

/-! ## The events of the reply window (R4, R5) -/

section
variable {s : State} {v : Visit}

theorem State.exec_downstreamSent (hv : s.lc.visit = some v) (hw : v.window = none) :
    exec .downstreamSent s =
      .next (s.openVisit { v with window := some (moment s.op.now s.op.settings.replyWindow) }) := by
  show Host.Outcome.next s.openWindow = _
  unfold State.openWindow
  rw [hv]
  dsimp only
  rw [hw]

theorem State.exec_noVisit (hv : s.lc.visit = none) (l : List Byte) :
    exec .downstreamSent s = .next s ∧ exec (.replyFrame l) s = .next s ∧ exec .replyWindowExpiry s = .next s
      ∧ exec .replyIncomplete s = .next s := by
  refine ⟨?_, ?_, ?_, ?_⟩
  · show Host.Outcome.next s.openWindow = _
    unfold State.openWindow
    rw [hv]
  · show Host.Outcome.next (s.takeReply l) = _
    unfold State.takeReply
    rw [hv]
  · show Host.Outcome.next s.windowExpiry = _
    unfold State.windowExpiry
    rw [hv]
  · show Host.Outcome.next s.incompleteReply = _
    unfold State.incompleteReply
    rw [hv]

theorem State.exec_windowExpiry {m : Nat} (hv : s.lc.visit = some v) (hw : v.window = some m) :
    exec .replyWindowExpiry s = .next (State.nextSlot (State.endVisit ((s.reach m).unanswered v))) := by
  show Host.Outcome.next s.windowExpiry = _
  unfold State.windowExpiry
  rw [hv]
  dsimp only
  rw [hw]
  rfl

theorem State.failedCheck_eq (s : State) (v : Visit) : s.failedCheck v = (s.raiseScore v.station).unanswered v := rfl

theorem State.exec_incomplete (hv : s.lc.visit = some v) :
    exec .replyIncomplete s = .next (State.nextSlot (State.endVisit ((s.raiseScore v.station).unanswered v))) := by
  show Host.Outcome.next s.incompleteReply = _
  unfold State.incompleteReply
  rw [hv]
  rfl

theorem State.exec_replyFrame_none {l : List Byte} (hv : s.lc.visit = some v) (hr : parseReply v.station l = none) :
    exec (.replyFrame l) s = exec .replyIncomplete s := by
  rw [State.exec_replyFrame hv, State.exec_incomplete hv]
  unfold State.useReply
  rw [hr]
  rfl

end

/-! ## The check of a reply frame (R5) -/

/-- The message kinds that a kind of station may send (R22). -/
def kindAllowed (station : StationKind) (k : Nat) : Prop :=
  k = 16 ∨ station = .scale ∧ 17 ≤ k ∧ k ≤ 20 ∨ station = .dispenser ∧ k = 21

theorem kindAllowed_of_parse {station : StationKind} {k : Nat} {data : List Byte} {m : UpMsg}
    (h : parseMessage station k data = some m) : kindAllowed station k := by
  unfold parseMessage at h
  unfold kindAllowed
  split at h
  case h_7 => cases h
  all_goals simp

/-- A reply frame that passes its check is of the form of R5. -/
theorem parseReply_some {a : Nat} {l : List Byte} {r : Reply} (h : parseReply a l = some r) :
    ∃ address kind flags len rest, l = address :: kind :: flags :: len :: rest
      ∧ len.toNat ≤ 120 ∧ len.toNat + 2 ≤ rest.length
      ∧ number ((rest.drop len.toNat).take 2) =
          (crc (address :: kind :: flags :: len :: rest.take len.toNat)).toNat
      ∧ address.toNat = a ∧ kindAllowed (kindOf a) kind.toNat := by
  unfold parseReply at h
  split at h
  · rename_i address kind flags len rest
    dsimp only at h
    split at h
    · cases h
    · rename_i hlen
      split at h
      · rename_i hcheck
        obtain ⟨hcrc, haddress⟩ := hcheck
        split at h
        · rename_i m hm
          exact ⟨address, kind, flags, len, rest, rfl, by omega, by omega, hcrc, haddress, kindAllowed_of_parse hm⟩
        · cases h
      · cases h
  · cases h

theorem parseReply_fails {a : Nat} {l : List Byte} (h : l.length < 6 ∨ (∃ x, l[0]? = some x ∧ x.toNat ≠ a)
    ∨ (∃ k, l[1]? = some k ∧ ¬ kindAllowed (kindOf a) k.toNat)
    ∨ (∃ n, l[3]? = some n ∧ (120 < n.toNat ∨ l.length < 6 + n.toNat
        ∨ number ((l.drop (4 + n.toNat)).take 2) ≠ (crc (l.take (4 + n.toNat))).toNat))) : parseReply a l = none := by
  cases hr : parseReply a l with
  | none => rfl
  | some r =>
    obtain ⟨address, kind, flags, len, rest, rfl, hlen, hrest, hcrc, haddress, hkind⟩ := parseReply_some hr
    exfalso
    rcases h with h | ⟨x, hx, hne⟩ | ⟨k, hk, hne⟩ | ⟨n, hn, hne⟩
    · simp only [List.length_cons] at h
      omega
    · obtain rfl : address = x := by simpa using hx
      exact hne haddress
    · obtain rfl : kind = k := by simpa using hk
      exact hne hkind
    · obtain rfl : len = n := by simpa using hn
      have hdrop : (address :: kind :: flags :: len :: rest).drop (4 + len.toNat) = rest.drop len.toNat := by
        rw [Nat.add_comm]
        rfl
      have htake : (address :: kind :: flags :: len :: rest).take (4 + len.toNat) =
          address :: kind :: flags :: len :: rest.take len.toNat := by
        rw [Nat.add_comm]
        rfl
      rw [hdrop, htake] at hne
      simp only [List.length_cons] at hne
      rcases hne with h | h | h
      · omega
      · omega
      · exact h hcrc

theorem kindOf_scale_of_le {a : Nat} (h : a ≤ 16) : kindOf a = .scale := by
  unfold kindOf
  rw [if_neg (by omega), if_neg (by omega)]

theorem kindOf_not_scale {a : Nat} (h : a = 17 ∨ a = 18) : kindOf a ≠ .scale := by
  rcases h with rfl | rfl <;> decide

/-- Settles O36. -/
theorem visitsEnd : Obligations.VisitsEnd := by
  refine ⟨fun s v hv hw => State.exec_downstreamSent hv hw, fun s hv l => State.exec_noVisit hv l, fun s v m hv hw => ?_,
    fun s v hv => ⟨State.exec_incomplete hv, fun l hr => State.exec_replyFrame_none hv hr⟩,
    fun a l h => parseReply_fails h, fun s v hv h17 => ?_, fun s v hv h16 hscore => ?_⟩
  · have hs : Changes [.op] s (s.reach m) := State.reach_changes m (Changes.refl _ s) rfl
    have hf := (s.reach m).unanswered_ends v
    refine ⟨_, State.exec_windowExpiry hv hw, hf.now, hf.slotCount, hf.score, hf.probe, hf.few, fun hp hm => ?_⟩
    have hmiss : (s.reach m).unanswered v = (s.reach m).goAbsent v.station := by
      unfold State.unanswered
      rw [if_neg (by rw [hp]; simp)]
      exact State.miss_third hm
    obtain ⟨hscale, hother⟩ := s.third_blocks (a := v.station) hs rfl
    have hop := (State.closed_changes ((s.reach m).goAbsent v.station)).same .op rfl
    have hthird := hf.third hp hm
    rw [hmiss] at hthird ⊢
    refine ⟨hthird, fun h => hscale (isScale_kind h), fun h => hother (kindOf_not_scale h), fun ha ho hl => ?_, fun ha => ?_⟩
    · rw [hop]
      exact (s.reach m).third_down ha ho hl
    · rw [hop]
      exact (s.reach m).third_quiet ha
  · have hf := s.unanswered_ends v
    rw [State.exec_incomplete hv, State.raiseScore_other (kindOf_not_scale h17)]
    exact ⟨_, rfl, hf.now, hf.score, fun hp => (hf.probe hp).2, hf.miss⟩
  · obtain ⟨u, hu⟩ : ∃ u, u = s.raiseScore v.station := ⟨_, rfl⟩
    have hplain := State.raiseScore_plain (kindOf_scale_of_le h16) hscore
    have hst : u.station v.station =
        { s.station v.station with score := min 255 ((s.station v.station).score + 4) } := by
      rw [hu, hplain, State.station_setStation, if_pos rfl]
    have hnow : u.op.now = s.op.now := by
      rw [hu, hplain]
      rfl
    have hf := u.unanswered_ends v
    rw [State.exec_incomplete hv, ← hu]
    refine ⟨_, rfl, hf.now.trans hnow, by rw [hf.score, hst], fun hp => ?_, fun hp hm => ?_, fun hp hm => ?_⟩
    · have := hf.probe hp
      rwa [hst] at this
    · have := hf.few hp (by rw [hst]; exact hm)
      rwa [hst] at this
    · rw [hf.third hp (by rw [hst]; exact hm)]
      exact ⟨rfl, rfl, rfl⟩

end Sys2Proof.Machine
end

section
/-! STN.MODE: what the configured mode moves (R4, R9, R11). -/

namespace Sys2Proof.Machine

/-! ## The command (R11, R183) -/

theorem exec_stnMode (s : State) (body : List Byte) :
    exec (.stnMode body) s = .next (s.transact 33 body (fun t => t.stnMode body)) := rfl

theorem modeOf_modeCode (m : Mode) : modeOf (modeCode m) = some m := by
  cases m <;> rfl

theorem modeCode_le (m : Mode) : modeCode m ≤ 4 := by
  cases m <;> decide

theorem modeOf_none {x : Nat} (h : x < 1 ∨ 4 < x) : modeOf x = none := by
  unfold modeOf
  split <;> first | omega | rfl

theorem modeAllowed_of {a : Nat} {m : Mode} (h : a ≤ 16 ∨ m = .off ∨ m = .normal) : modeAllowed a m = true := by
  rcases h with h | rfl | rfl
  · cases m <;> simp [modeAllowed, h]
  · rfl
  · rfl

section
variable (s : State) {a x : Nat} {m : Mode}

/-- STN.MODE with a station's address and a character that is no mode. -/
theorem State.stnMode_none (h1 : 1 ≤ a) (h2 : a ≤ 18) (hx : x < 256) (hm : modeOf x = none) :
    s.stnMode (chars 1 a ++ chars 1 x) = (s, .refuse .badArg) := by
  unfold State.stnMode
  dsimp only
  rw [field_head_eq _ (by omega), field_behind 1, field_chars_eq (by omega), if_neg (by simp; omega), hm]

/-- STN.MODE with a station's address and a mode. -/
theorem State.stnMode_some (h1 : 1 ≤ a) (h2 : a ≤ 18) (hx : x < 256) (hm : modeOf x = some m) :
    s.stnMode (chars 1 a ++ chars 1 x) =
      if modeAllowed a m then (s.setMode a m, .ok []) else (s, .refuse .badArg) := by
  unfold State.stnMode
  dsimp only
  rw [field_head_eq _ (by omega), field_behind 1, field_chars_eq (by omega), if_neg (by simp; omega), hm]

theorem State.stnMode_refused (h1 : 1 ≤ a) (h2 : a ≤ 18) (h : x < 1 ∨ 4 < x ∧ x < 256 ∨ 16 < a ∧ (x = 3 ∨ x = 4)) :
    s.stnMode (chars 1 a ++ chars 1 x) = (s, .refuse .badArg) := by
  by_cases hx : x < 1 ∨ 4 < x
  · exact s.stnMode_none h1 h2 (by omega) (modeOf_none hx)
  · have ha : ¬ a ≤ 16 := by omega
    obtain rfl | rfl : x = 3 ∨ x = 4 := by omega
    · rw [s.stnMode_some h1 h2 (by omega) (m := .detached) rfl, if_neg (by simpa [modeAllowed] using ha)]
    · rw [s.stnMode_some h1 h2 (by omega) (m := .proof) rfl, if_neg (by simpa [modeAllowed] using ha)]

theorem State.stnMode_accepted (h1 : 1 ≤ a) (h2 : a ≤ 18) (h : a ≤ 16 ∨ m = .off ∨ m = .normal) :
    s.stnMode (chars 1 a ++ chars 1 (modeCode m)) = (s.setMode a m, .ok []) := by
  have := modeCode_le m
  rw [s.stnMode_some h1 h2 (by omega) (modeOf_modeCode m)]
  exact if_pos (modeAllowed_of h)

end

/-! ## The configured mode (R11) -/

/-- A station with its mode configured, before the mode moves it. -/
def State.withMode (s : State) (a : Nat) (m : Mode) : State := s.setStation a (configured (s.station a) m)

theorem State.withMode_station (s : State) (a : Nat) (m : Mode) :
    (s.withMode a m).station a = configured (s.station a) m :=
  (State.station_setStation s a a _).trans (if_pos rfl)

/-- What the side effect of a mode leaves of a station. -/
theorem configured_fields (st : Station) (m : Mode) : (configured st m).mode = m
    ∧ (configured st m).detachedFlag = (if m = .normal then false else if m = .detached then true else st.detachedFlag)
    ∧ (configured st m).score = (if m = .normal then 0 else st.score) := by
  cases m <;> exact ⟨rfl, rfl, rfl⟩

theorem configured_state (st : Station) (m : Mode) : (configured st m).state = st.state := by
  cases m <;> rfl

/-- The move that a mode makes (R11). -/
def State.modeMoved (s : State) (a : Nat) (m : Mode) : State :=
  if m = .off then (s.withMode a m).turnOff a else (s.withMode a m).applyMode a m

theorem State.setMode_eq (s : State) (a : Nat) (m : Mode) : s.setMode a m =
    State.nextSlot (State.dropVisit (s.modeMoved a m)) := rfl

/-- The state that a mode leaves a station in (the table of R11). -/
def afterMode : Mode → StationState → StationState
  | .off, _ => .off
  | _, .off => .absent
  | _, .absent => .absent
  | _, .joining => .joining
  | .normal, _ => .normal
  | .detached, _ => .detached
  | .proof, _ => .proof

theorem afterMode_serving {m : Mode} {x : StationState} (hm : m ≠ .off) (hx : serving x = true) :
    afterMode m x = modeState m := by
  cases m with
  | off => exact absurd rfl hm
  | _ => cases x <;> first | rfl | cases hx

theorem afterMode_unserving {m : Mode} (hm : m ≠ .off) :
    afterMode m .off = .absent ∧ afterMode m .absent = .absent ∧ afterMode m .joining = .joining := by
  cases m with
  | off => exact absurd rfl hm
  | _ => exact ⟨rfl, rfl, rfl⟩

theorem serving_modeState {m : Mode} (hm : m ≠ .off) : serving (modeState m) = true := by
  cases m with
  | off => exact absurd rfl hm
  | _ => rfl

section
variable {s : State} {a : Nat} {m : Mode}

theorem State.modeMoved_polled (hp : polled (s.station a).state = true) :
    s.modeMoved a .off = (s.withMode a .off).leaveService a .off := by
  unfold State.modeMoved State.turnOff
  rw [if_pos rfl, State.withMode_station, configured_state, if_pos hp]

theorem State.modeMoved_off (hp : polled (s.station a).state = false) :
    s.modeMoved a .off = (s.withMode a .off).setStation a { configured (s.station a) .off with state := .off } := by
  unfold State.modeMoved State.turnOff
  rw [if_pos rfl, State.withMode_station, configured_state, if_neg (by rw [hp]; simp)]

/-- A mode other than OFF moves a station by the state it is in. -/
theorem State.modeMoved_on (hm : m ≠ .off) : s.modeMoved a m =
    match (s.station a).state with
    | .off => (s.withMode a m).setStation a { configured (s.station a) m with state := .absent }
    | .absent => s.withMode a m
    | .joining => (s.withMode a m).setStation a { configured (s.station a) m with
        queue := retarget (joinTarget a (configured (s.station a) m)) (s.station a).queue }
    | x => if modeState m = x then s.withMode a m else (s.withMode a m).moveInService a (modeState m) := by
  have hst := s.withMode_station a m
  have hstate := configured_state (s.station a) m
  unfold State.modeMoved State.applyMode
  rw [if_neg hm, hst, hstate]
  cases hx : (s.station a).state with
  | joining =>
    dsimp only
    rw [State.recomputeJoin_joining (by rw [hst, hstate, hx]), hst, configured_queue]
  | _ => rfl

theorem State.modeMoved_shifts (hm : m ≠ .off) (hs : s.inService a = true) (hx : modeState m ≠ (s.station a).state) :
    s.modeMoved a m = (s.withMode a m).moveInService a (modeState m) := by
  unfold State.inService at hs
  rw [State.modeMoved_on hm]
  cases hst : (s.station a).state <;> rw [hst] at hs hx <;> first | exact if_neg hx | cases hs

end

/-- What a mode leaves of the stations (R11): of the one it names the mode, the flag, the score and the state. -/
structure State.ModeSet (s u : State) (a : Nat) (m : Mode) : Prop where
  mode : (u.station a).mode = m
  flag : (u.station a).detachedFlag =
    (if m = .normal then false else if m = .detached then true else (s.station a).detachedFlag)
  score : (u.station a).score = (if m = .normal then 0 else (s.station a).score)
  state : (u.station a).state = afterMode m (s.station a).state
  only : StationOnly a s u

/-- A station's record whose mode, flag and score are the configured ones. -/
theorem State.ModeSet.of_station {s u : State} {a : Nat} {m : Mode} {x : StationState} {r : Station}
    (h : u.station a = { r with state := x }) (hr : r.mode = (configured (s.station a) m).mode
      ∧ r.detachedFlag = (configured (s.station a) m).detachedFlag ∧ r.score = (configured (s.station a) m).score)
    (hx : x = afterMode m (s.station a).state) (ho : StationOnly a s u) : s.ModeSet u a m := by
  obtain ⟨hmode, hflag, hscore⟩ := hr
  obtain ⟨cmode, cflag, cscore⟩ := configured_fields (s.station a) m
  refine ⟨?_, ?_, ?_, ?_, ho⟩ <;> rw [h]
  · exact hmode.trans cmode
  · exact hflag.trans cflag
  · exact hscore.trans cscore
  · exact hx

theorem State.modeMoved_set (s : State) (a : Nat) (m : Mode) : s.ModeSet (s.modeMoved a m) a m := by
  have hw : StationOnly a s (s.withMode a m) := .setStation s a _
  have hst := s.withMode_station a m
  have written {r : Station} : ((s.withMode a m).setStation a r).station a = r ∧
      StationOnly a s ((s.withMode a m).setStation a r) :=
    ⟨(State.station_setStation _ a a r).trans (if_pos rfl), hw.trans (.setStation _ a r)⟩
  by_cases hm : m = .off
  · subst hm
    cases hp : polled (s.station a).state with
    | true =>
      have hg := (s.withMode a .off).leaveService_gone a .off
      rw [State.modeMoved_polled hp]
      refine .of_station (r := departed (configured (s.station a) .off) .off) ?_ ⟨rfl, rfl, rfl⟩ rfl
        ((hw.trans (.setStation _ a _)).trans (.of_lc hg.lc))
      rw [State.station_of_lc hg.lc]
      unfold State.leaving
      rw [State.station_setStation, if_pos rfl, hst]
      rfl
    | false =>
      rw [State.modeMoved_off hp]
      exact .of_station written.1 ⟨rfl, rfl, rfl⟩ rfl written.2
  · have kept (hx : (s.station a).state = afterMode m (s.station a).state) : s.ModeSet (s.withMode a m) a m := by
      refine .of_station (r := configured (s.station a) m) (hst.trans ?_) ⟨rfl, rfl, rfl⟩ hx hw
      rw [← configured_state (s.station a) m]
    obtain ⟨hoff, habsent, hjoining⟩ := afterMode_unserving hm
    rw [State.modeMoved_on hm]
    have served {x : StationState} (hx : (s.station a).state = x) (hsv : serving x = true) : s.ModeSet
        (if modeState m = x then s.withMode a m else (s.withMode a m).moveInService a (modeState m)) a m := by
      have hafter := afterMode_serving hm hsv
      split
      · rename_i he
        exact kept (by rw [hx, hafter, he])
      · have hmv := (s.withMode a m).moveInService_moved a (serving_modeState hm)
        obtain ⟨q, b, o, h⟩ := hmv.station
        rw [hst] at h
        exact .of_station (r := { configured (s.station a) m with queue := q, backlog := b, showOwed := o }) h
          ⟨rfl, rfl, rfl⟩ (by rw [hx, hafter]) (hw.trans hmv.only)
    cases hx : (s.station a).state with
    | off => exact .of_station written.1 ⟨rfl, rfl, rfl⟩ (by rw [hx, hoff]) written.2
    | absent => exact kept (by rw [hx, habsent])
    | joining =>
      refine .of_station (x := .joining) (r := { configured (s.station a) m with
        queue := retarget (joinTarget a (configured (s.station a) m)) (s.station a).queue }) (written.1.trans ?_)
        ⟨rfl, rfl, rfl⟩ (by rw [hx, hjoining]) written.2
      rw [← hx, ← configured_state (s.station a) m]
    | normal => exact served hx rfl
    | detached => exact served hx rfl
    | proof => exact served hx rfl

end Sys2Proof.Machine
end

section
/-! STN.MODE accepted: the visit it drops, the slot it lets begin, and what R11 leaves after both (R4, R9 to R11). -/

namespace Sys2Proof.Machine

/-! ## The line after a mode has moved a station (R4) -/

theorem State.dropVisit_station (u : State) (b : Nat) : u.dropVisit.station b = u.station b := by
  unfold State.dropVisit
  (repeat' split) <;> rfl

theorem State.dropVisit_kept {u : State} {v : Visit} (hv : u.lc.visit = some v) (hp : v.probe = false)
    (hs : polled (u.station v.station).state = true) : u.dropVisit = u := by
  unfold State.dropVisit
  rw [hv]
  dsimp only
  rw [if_neg (by rw [hp]; simp), if_pos hs]

/-- What the end of an accepted STN.MODE leaves of the state in which its mode has moved the station: of each station's
record all but one mark "sent", which an ordinary visit under way at a polled station holds back, and the other blocks but for
the response. -/
structure State.Resumed (u t : State) : Prop where
  station : ∀ b, ∃ q, t.station b = { u.station b with queue := q }
    ∧ q.map (·.msg) = (u.station b).queue.map (·.msg)
    ∧ (polled (u.station b).state = false → q = (u.station b).queue)
  busy : ∀ v, u.lc.visit = some v → v.probe = false → polled (u.station v.station).state = true → t.lc = u.lc
  changes : Changes [.lc, .op] u t
  fifo : t.op.fifo = u.op.fifo
  overflow : t.op.overflow = u.op.overflow

/-- R183: a command that is executed stores its answer in the state that its meaning leaves. -/
theorem State.transact_runs {s u : State} {code : Byte} {body : List Byte} {run : State → State × Answer} {r : Answer}
    (hr : s.op.resetLow = false) (hl : body.length ≤ 255) (hrun : run s = (u, r)) :
    s.transact code body run = (u.answer code r).sent (List.replicate (3 + body.length) 255) := by
  unfold State.transact
  rw [hr, if_neg (by simp), if_neg (by omega), hrun]

/-- An accepted STN.MODE as its transaction (R183). -/
theorem State.exec_stnMode_accepted {s : State} {a : Nat} {m : Mode} (hr : s.op.resetLow = false) (h1 : 1 ≤ a)
    (h2 : a ≤ 18) (h : a ≤ 16 ∨ m = .off ∨ m = .normal) :
    ∃ t, exec (.stnMode (chars 1 a ++ chars 1 (modeCode m))) s = .next t
      ∧ t.op.response = some { code := 33, result := .ok, clamped := false, body := [] }
      ∧ (s.modeMoved a m).Resumed t := by
  obtain ⟨u, hu⟩ : ∃ u, u = s.modeMoved a m := ⟨_, rfl⟩
  have hd : Changes [.lc] u u.dropVisit := State.dropVisit_changes (Changes.refl _ u) rfl
  have hn : Changes [.lc] u u.dropVisit.nextSlot := State.nextSlot_changes hd rfl
  rw [exec_stnMode, State.transact_runs hr (by simp) (s.stnMode_accepted h1 h2 h), State.setMode_eq, ← hu]
  refine ⟨_, rfl, rfl, fun b => ?_, fun v hv hp hs => ?_, ?_, ?_, ?_⟩
  · have hb := u.dropVisit_station b
    rcases u.dropVisit.nextSlot_station b with hw | ⟨hp, hw⟩ <;> rw [hb] at hw
    · exact ⟨_, hw, rfl, fun _ => rfl⟩
    · rw [hb] at hp
      exact ⟨_, hw, map_msg_markHead _, fun hf => by rw [hp] at hf; cases hf⟩
  · show u.dropVisit.nextSlot.lc = u.lc
    rw [State.dropVisit_kept hv hp hs, State.nextSlot_busy hv]
  · exact (hn.grow (by simp)).trans ⟨fun b hb => by cases b <;> first | rfl | exact absurd (by simp) hb⟩
  · show u.dropVisit.nextSlot.op.fifo = _
    rw [hn.same .op rfl]
  · show u.dropVisit.nextSlot.op.overflow = _
    rw [hn.same .op rfl]

theorem State.exec_stnMode_refused {s : State} {a x : Nat} (hr : s.op.resetLow = false) (h1 : 1 ≤ a) (h2 : a ≤ 18)
    (h : x < 1 ∨ 4 < x ∧ x < 256 ∨ 16 < a ∧ (x = 3 ∨ x = 4)) :
    exec (.stnMode (chars 1 a ++ chars 1 x)) s = .next (s.responded 33 .badArg false [] 5) := by
  rw [exec_stnMode, State.transact_reads hr (by simp) (s.stnMode_refused h1 h2 h)]
  rfl

/-! ## The parts of the table of R11 -/

section
variable {s t : State} {a : Nat} {m : Mode}

/-- The fields of a station that the end of the command leaves alone. -/
theorem State.Resumed.fields {u : State} (h : u.Resumed t) (b : Nat) : (t.station b).mode = (u.station b).mode
    ∧ (t.station b).state = (u.station b).state ∧ (t.station b).miss = (u.station b).miss
    ∧ (t.station b).score = (u.station b).score ∧ (t.station b).detachedFlag = (u.station b).detachedFlag
    ∧ (t.station b).backlog = (u.station b).backlog
    ∧ (t.station b).queue.map (·.msg) = (u.station b).queue.map (·.msg) := by
  obtain ⟨q, hq, hmsg, -⟩ := h.station b
  rw [hq]
  exact ⟨rfl, rfl, rfl, rfl, rfl, rfl, hmsg⟩

/-- The messages that stand in a station's queue stand in it still. -/
theorem State.Resumed.mem {u : State} (h : u.Resumed t) {b : Nat} {x : DownMsg}
    (hx : ∃ e ∈ (u.station b).queue, e.msg = x) : ∃ e ∈ (t.station b).queue, e.msg = x := by
  obtain ⟨-, -, -, -, -, -, hmsg⟩ := h.fields b
  rw [← List.mem_map, hmsg, List.mem_map]
  exact hx

/-- OFF takes a polled station out of service (R10). -/
theorem State.off_leaves (hp : polled (s.station a).state = true) (h : (s.modeMoved a .off).Resumed t) :
    t.station a = { s.station a with mode := .off, state := .off, queue := [], backlog := .articles [], holdOff := false,
                                     showOwed := false, miss := 0 }
    ∧ (kindOf a = .scale → s.LeftService t a) := by
  have hg := (s.withMode a .off).leaveService_gone a .off
  rw [State.modeMoved_polled hp] at h
  have hw : Changes [.lc, .op] s (s.withMode a .off) := State.setStation_changes _ _ (Changes.refl _ s) rfl
  have hst : ((s.withMode a .off).leaveService a .off).station a = departed (configured (s.station a) .off) .off := by
    rw [State.station_of_lc hg.lc]
    unfold State.leaving
    rw [State.station_setStation, if_pos rfl, State.withMode_station]
  refine ⟨?_, fun hk => (hg.left hk).congr hw rfl h.changes h.fifo h.overflow⟩
  obtain ⟨q, hq, -, hsame⟩ := h.station a
  rw [hst] at hq hsame
  rw [hq, hsame rfl]
  rfl

/-- A mode moves a scale from one in-service state to another (R11, R17, R51, R92, R104). -/
theorem State.mode_shifts (hm : m ≠ .off) (hs : s.inService a = true) (hx : modeState m ≠ (s.station a).state)
    (h : (s.modeMoved a m).Resumed t) :
    let ch := if (s.channel a).ctx.pin.isSome then unpinned (s.channel a) else s.channel a
    (∃ e ∈ (t.station a).queue, e.msg = .setmode (modeState m) false (s.layoutOf a))
    ∧ t.channel a = judged ch (formVerdict ch s.op.settings.increment (decide (modeState m = .proof)))
    ∧ (t.channel a).ctx.pin = none
    ∧ (∀ p, (s.channel a).ctx.pin = some p → a ∉ (t.article p.number).pins)
    ∧ ((s.station a).state ≠ .normal → t.copyMap a = s.copyMap a)
    ∧ ((s.station a).state = .normal → t.copyMap a = [] ∧ (∀ e ∈ s.copyMap a, a ∉ (t.article e.article).holders)
      ∧ ((∃ e ∈ (t.station a).queue, e.msg = .purgeAll) ∨ (t.station a).backlog = .all)) := by
  intro ch
  have hmv := (s.withMode a m).moveInService_moved a (serving_modeState hm)
  rw [State.modeMoved_shifts hm hs hx] at h
  have hchannel : t.channel a = _ := State.channel_of_we (h.changes.same .we rfl) a
  have hcopy : t.copyMap a = _ := State.copyMap_of_cd (h.changes.same .cd rfl) a
  have hart (n : Nat) : t.article n = _ := State.article_of_art (h.changes.same .art rfl) n
  have hstate : ((s.withMode a m).station a).state = (s.station a).state := by
    rw [State.withMode_station, configured_state]
  obtain ⟨-, -, -, -, -, hbacklog, -⟩ := h.fields a
  refine ⟨h.mem hmv.setmode, hchannel.trans hmv.channel, ?_, fun p hp => ?_, fun hn => ?_, fun hn => ?_⟩
  · rw [hchannel]
    exact hmv.pin
  · rw [hart]
    exact hmv.pins p hp
  · rw [hcopy]
    exact hmv.kept (by rw [hstate]; exact hn)
  · obtain ⟨hmap, hholders, hpurge⟩ := hmv.emptied (by rw [hstate]; exact hn)
    refine ⟨hcopy.trans hmap, fun e he => ?_, ?_⟩
    · rw [hart]
      exact hholders e he
    · rw [hbacklog]
      exact hpurge.imp h.mem id

/-- The join target under a mode that the kind of station may have (R9). -/
theorem joinTarget_configured (st : Station) (hm : m ≠ .off) (ha : a ≤ 16 ∨ m = .off ∨ m = .normal) :
    joinTarget a (configured st m) = if m = .proof then .proof else if m = .detached then .detached else .normal := by
  unfold joinTarget
  rcases ha with ha | rfl | rfl
  · have hk : kindOf a = .scale := kindOf_scale_of_le ha
    rw [hk]
    cases m with
    | off => exact absurd rfl hm
    | _ => rfl
  · exact absurd rfl hm
  · cases kindOf a <;> rfl

/-- While the station is JOINING, a mode rewrites its join SETMODE (R9). -/
theorem State.mode_rejoins (hj : (s.station a).state = .joining) (hm : m ≠ .off) (ha : a ≤ 16 ∨ m = .off ∨ m = .normal)
    {old : StationState} {layout : Option ScaleLayout} {sent : Bool} {rest : List Entry}
    (hq : (s.station a).queue = { msg := .setmode old true layout, sent := sent } :: rest)
    (h : (s.modeMoved a m).Resumed t) :
    let target : StationState := if m = .proof then .proof else if m = .detached then .detached else .normal
    let rewritten : List Entry :=
      if old = target then (s.station a).queue else { msg := .setmode target true layout, sent := false } :: rest
    (t.station a).queue.map (·.msg) = rewritten.map (·.msg)
    ∧ ∀ v, s.lc.visit = some v → v.probe = false → polled (s.station v.station).state = true →
        (t.station a).queue = rewritten := by
  intro target rewritten
  have hset := s.modeMoved_set a m
  have hqueue : ((s.modeMoved a m).station a).queue = rewritten := by
    rw [State.modeMoved_on hm, hj]
    dsimp only
    rw [State.station_setStation, if_pos rfl, joinTarget_configured _ hm ha]
    show retarget target (s.station a).queue = if old = target then (s.station a).queue else _
    rw [hq]
    exact retarget_join _ _ _ _ _ _
  obtain ⟨-, -, -, -, -, -, hmsg⟩ := h.fields a
  refine ⟨by rw [hmsg, hqueue], fun v hv hp hs => ?_⟩
  have hpolled : polled ((s.modeMoved a m).station v.station).state = true := by
    by_cases hb : v.station = a
    · obtain ⟨-, -, hjoining⟩ := afterMode_unserving hm
      rw [hb, hset.state, hj, hjoining]
      rfl
    · rw [hset.only.1 _ hb]
      exact hs
  have hvisit : (s.modeMoved a m).lc.visit = some v := by
    rw [hset.only.2]
    exact hv
  rw [State.station_of_lc (h.busy v hvisit hp hpolled), hqueue]

end

/-- Settles O30. -/
theorem stnModeMoves : Obligations.StnModeMoves := by
  intro s a x hr h1 h2 body st
  refine ⟨fun h => State.exec_stnMode_refused hr h1 h2 h, fun m hx ha => ?_⟩
  subst hx
  obtain ⟨t, hexec, hresponse, h⟩ := State.exec_stnMode_accepted hr h1 h2 ha
  have hset := s.modeMoved_set a m
  obtain ⟨hmode, hstate, -, hscore, hflag, -, -⟩ := h.fields a
  have hafter : (t.station a).state = afterMode m st.state := hstate.trans hset.state
  refine ⟨t, hexec, hresponse, hmode.trans hset.mode, hflag.trans hset.flag, hscore.trans hset.score, ?_, fun b hb => ?_,
    fun hm hp => ?_, fun h16 hm hs hne => ?_, fun hj hm old layout sent rest hq => State.mode_rejoins hj hm ha hq h⟩
  · rw [hafter]
    rfl
  · obtain ⟨bmode, bstate, bmiss, bscore, -, -, -⟩ := h.fields b
    rw [hset.only.1 b hb] at bmode bstate bmiss bscore
    exact ⟨bmode, bstate, bmiss, bscore⟩
  · subst hm
    obtain ⟨hst, hleft⟩ := State.off_leaves hp h
    exact ⟨hst, fun h16 => hleft (kindOf_scale_of_le h16)⟩
  · rw [afterMode_serving hm hs] at hafter
    rw [hafter] at hne ⊢
    exact State.mode_shifts hm hs hne h

end Sys2Proof.Machine
end

section
/-! Rounding half up and the fields of a verdict: the weight state, the applied tare, the net and the price by sale mode
(R34 to R36, R53 to R63). -/

namespace Sys2Proof.Machine

/-! ## Rounding (R35, R54, R56, R57, R59) -/

/-- The whole multiples of d around a number y that is counted in units of 1 / k. -/
theorem floorMultiple_bounds {k d : Nat} (h : 0 < k * d) (y : Nat) :
    k * (d * (y / (k * d))) ≤ y ∧ y < k * (d * (y / (k * d)) + d) := by
  have hle := Nat.mul_div_le y (k * d)
  have hlt := Nat.lt_mul_div_succ y h
  refine ⟨by rwa [← mul_assoc], ?_⟩
  calc y < k * d * (y / (k * d) + 1) := hlt
    _ = k * (d * (y / (k * d)) + d) := by ring

theorem grossOf_halfUp (fine : Int) {e : Nat} (h : 0 < e) : (∃ k : Int, grossOf fine e = e * k)
    ∧ 20 * grossOf fine e ≤ 2 * fine + 10 * e ∧ 2 * fine + 10 * e < 20 * (grossOf fine e + e) := by
  have hpos : 0 < 20 * (e : Int) := by omega
  unfold grossOf
  refine ⟨⟨_, rfl⟩, ?_, ?_⟩
  · rw [← mul_assoc]
    exact Int.mul_ediv_self_le hpos.ne'
  · calc 2 * fine + 10 * e < 20 * e * ((2 * fine + 10 * e) / (20 * e)) + 20 * e := Int.lt_mul_ediv_self_add hpos
      _ = 20 * (e * ((2 * fine + 10 * e) / (20 * e)) + e) := by ring

/-- The rounding of R57, which is that of R54 with an increment for the division. -/
theorem roundCents_halfUp (x : Nat) {d : Nat} (h : 0 < d) :
    d ∣ roundCents x d ∧ 2 * roundCents x d ≤ 2 * x + d ∧ 2 * x + d < 2 * (roundCents x d + d) :=
  ⟨Nat.dvd_mul_right _ _, floorMultiple_bounds (by omega) _⟩

theorem effectiveUnit_halfUp (p m : Nat) : 200 * effectiveUnit p m ≤ 2 * p * (100 - m) + 100
    ∧ 2 * p * (100 - m) + 100 < 200 * (effectiveUnit p m + 1) := by
  unfold effectiveUnit
  omega

theorem weightPrice_halfUp (net unit : Nat) {d : Nat} (h : 0 < d) : d ∣ weightPrice net unit d
    ∧ 2000 * weightPrice net unit d ≤ 2 * net * unit + 1000 * d
    ∧ 2 * net * unit + 1000 * d < 2000 * (weightPrice net unit d + d) :=
  ⟨Nat.dvd_mul_right _ _, floorMultiple_bounds (by omega) _⟩

/-- Settles O43. -/
theorem roundingIsHalfUp : Obligations.RoundingIsHalfUp :=
  ⟨fun fine _ h => grossOf_halfUp fine h, fun t _ h => roundCents_halfUp t h, fun x _ h => roundCents_halfUp x h,
    effectiveUnit_halfUp, fun net unit _ h => weightPrice_halfUp net unit h⟩

/-! ## The weight state, the gross and the applied tare (R34, R36, R53, R54) -/

theorem division_eq (c : MetroConfig) (r : RangeState) :
    division c r = if c.split = 0 ∨ r = .range1 then c.e1 else c.e2 := by
  unfold division
  cases r <;> by_cases h : c.split = 0 <;> simp [h]

section
variable {ch : Channel}

theorem weightState_fault (h : ch.motion = .fault) : weightState ch = .fault := by
  unfold weightState
  rw [h]

theorem weightState_filling (h : ch.motion = .filling) : weightState ch = .filling := by
  unfold weightState
  rw [h]

/-- The weight state of a channel with a filter result (R36). -/
theorem weightState_result {r : FilterResult} (h : ch.motion = .motion ∨ ch.motion = .stable)
    (hr : ch.result = some r) : weightState ch =
      if (ch.config.max : Int) + 9 * division ch.config ch.range < r.gross then .overload
      else if r.gross < -(20 * (ch.config.e1 : Int)) then .underload
      else if ch.motion = .stable then .stable else .motion := by
  unfold weightState
  rcases h with h | h <;> simp only [h, hr] <;> rfl

theorem showsWeight_iff {w : WeightState} : showsWeight w = true ↔ w = .motion ∨ w = .stable := by
  cases w <;> simp [showsWeight]

theorem shownGross_hidden (h1 : weightState ch ≠ .motion) (h2 : weightState ch ≠ .stable) : shownGross ch = none :=
  if_neg (fun h => (showsWeight_iff.mp h).elim h1 h2)

theorem shownGross_shown {r : FilterResult} (h : weightState ch = .motion ∨ weightState ch = .stable)
    (hr : ch.result = some r) : shownGross ch = some r.gross := by
  unfold shownGross
  rw [if_pos (showsWeight_iff.mpr h), hr]
  rfl

theorem appliedTare_noTare (h : ch.tare = .noTare) : appliedTare ch = none := by
  unfold appliedTare
  rw [h]

theorem appliedTare_grams {g : Nat} (h : ch.tare = .weighed g ∨ ch.tare = .keyed g ∨ ch.tare = .preset g) :
    appliedTare ch = some (roundTare g (division ch.config ch.range)) := by
  unfold appliedTare
  rcases h with h | h | h <;> rw [h]

/-! ## The price (R58 to R61) -/

/-- The price limit of R59 and R60. -/
theorem limited_eq (x : Nat) : limited x = if 999999 < x then (.priceOver, none) else (.priced, some x) := rfl

theorem limited_spec {x : Nat} {y : PriceState × Option Nat} (h : y = limited x) :
    if 999999 < x then y.1 = .priceOver ∧ y.2 = none else y.1 = .priced ∧ y.2 = some x := by
  rw [h, limited_eq]
  split <;> exact ⟨rfl, rfl⟩

theorem priceOf_unpinned (h : ch.ctx.pin = none) (d : Nat) :
    priceOf ch d = (if ch.ctx.cancelled then .cancelled else .noPrice, none) := by
  unfold priceOf
  rw [h]
  dsimp only
  split <;> rfl

section
variable {p : Snapshot} (hp : ch.ctx.pin = some p) (d : Nat)
include hp

theorem priceOf_fixed (h : p.content.mode = .fixed) :
    priceOf ch d = (.priced, some (roundCents (effectiveUnit p.content.price p.content.markdown) d)) := by
  simp only [priceOf, hp, h]

theorem priceOf_byCount (h : p.content.mode = .byCount) {q : Nat} (hq : ch.ctx.quantity = some q) :
    priceOf ch d = limited (roundCents (q * effectiveUnit p.content.price p.content.markdown) d) := by
  simp only [priceOf, hp, h, hq, Option.getD_some]

theorem priceOf_noNet (h : p.content.mode = .byWeight) (hn : shownNet ch = none) : priceOf ch d = (.noPrice, none) := by
  simp only [priceOf, hp, h, hn]

theorem priceOf_byWeight (h : p.content.mode = .byWeight) {n : Int} (hn : shownNet ch = some n) : priceOf ch d =
    if n < 20 * (ch.config.e1 : Int) then (.underMin, none)
    else limited (weightPrice n.toNat (effectiveUnit p.content.price p.content.markdown) d) := by
  simp only [priceOf, hp, h, hn, priceByWeight]

end

/-! ## The verdict (R49, R52) -/

/-- A verdict of a channel without a pin. -/
theorem formVerdict_unpinned (h : ch.ctx.pin = none) (d : Nat) (proof : Bool) :
    let v := formVerdict ch d proof
    v.price = none ∧ v.unit = none ∧ v.quantity = none ∧ v.pin = none
      ∧ v.priceState = if ch.ctx.cancelled then .cancelled else .noPrice := by
  simp [formVerdict, priceOf_unpinned h, shownQuantity, h]

/-- The weight state of a verdict of a channel with a filter result, by its gross. -/
theorem formVerdict_weight {r : FilterResult} (h : ch.motion = .motion ∨ ch.motion = .stable) (hr : ch.result = some r)
    (d : Nat) (proof : Bool) :
    let v := formVerdict ch d proof
    let limit := (ch.config.max : Int) + 9 * division ch.config ch.range
    (limit < r.gross → v.weight = .overload)
    ∧ (r.gross ≤ limit → r.gross < -(20 * (ch.config.e1 : Int)) → v.weight = .underload)
    ∧ (r.gross ≤ limit → -(20 * (ch.config.e1 : Int)) ≤ r.gross →
        v.weight = if ch.motion = .stable then .stable else .motion) := by
  intro v limit
  have hw : v.weight = weightState ch := rfl
  rw [hw, weightState_result h hr]
  refine ⟨fun h1 => if_pos h1, fun h1 h2 => ?_, fun h1 h2 => ?_⟩
  · rw [if_neg (not_lt.mpr h1), if_pos h2]
  · rw [if_neg (not_lt.mpr h1), if_neg (not_lt.mpr h2)]

/-- The fields of a verdict that its pin gives, and the price by the sale mode of the pin. -/
theorem formVerdict_pinned {p : Snapshot} (hp : ch.ctx.pin = some p) (d : Nat) (proof : Bool) :
    let v := formVerdict ch d proof
    let unit := effectiveUnit p.content.price p.content.markdown
    v.unit = some unit
    ∧ v.pin = some { number := p.number, revision := p.revision, name := p.content.name, mode := p.content.mode }
    ∧ (p.content.mode ≠ .byCount → v.quantity = none)
    ∧ (p.content.mode = .fixed → v.priceState = .priced ∧ v.price = some (roundCents unit d))
    ∧ (∀ q, p.content.mode = .byCount → ch.ctx.quantity = some q → v.quantity = some q
        ∧ (let x := roundCents (q * unit) d
           if 999999 < x then v.priceState = .priceOver ∧ v.price = none
           else v.priceState = .priced ∧ v.price = some x))
    ∧ (p.content.mode = .byWeight → v.net = none → v.priceState = .noPrice ∧ v.price = none)
    ∧ ∀ n, p.content.mode = .byWeight → v.net = some n →
        (n < 20 * (ch.config.e1 : Int) → v.priceState = .underMin ∧ v.price = none)
        ∧ (20 * (ch.config.e1 : Int) ≤ n →
            let x := weightPrice n.toNat unit d
            if 999999 < x then v.priceState = .priceOver ∧ v.price = none
            else v.priceState = .priced ∧ v.price = some x) := by
  intro v unit
  have hprice : v.priceState = (priceOf ch d).1 ∧ v.price = (priceOf ch d).2 := ⟨rfl, rfl⟩
  have hquantity : v.quantity = if p.content.mode = .byCount then ch.ctx.quantity else none := by
    show shownQuantity ch = _
    simp only [shownQuantity, hp]
  rw [hprice.1, hprice.2]
  refine ⟨?_, ?_, fun h => ?_, fun h => ?_, fun q h hq => ⟨?_, ?_⟩, fun h hn => ?_, fun n h hn => ⟨fun hm => ?_, fun hm => ?_⟩⟩
  · show ch.ctx.pin.map _ = _
    rw [hp]
    rfl
  · show ch.ctx.pin.map _ = _
    rw [hp]
    rfl
  · rw [hquantity, if_neg h]
  · rw [priceOf_fixed hp d h]
    exact ⟨rfl, rfl⟩
  · rw [hquantity, if_pos h, hq]
  · exact limited_spec (priceOf_byCount hp d h hq)
  · rw [priceOf_noNet hp d h hn]
    exact ⟨rfl, rfl⟩
  · rw [priceOf_byWeight hp d h hn, if_pos hm]
    exact ⟨rfl, rfl⟩
  · exact limited_spec ((priceOf_byWeight hp d h hn).trans (if_neg (not_lt.mpr hm)))

end

/-- Settles O44. -/
theorem verdictsPrice : Obligations.VerdictsPrice := by
  intro ch d proof v e
  have he : division ch.config ch.range = e := division_eq _ _
  refine ⟨fun h => formVerdict_unpinned h d proof, fun h1 h2 => ?_, fun r h hr => ?_, ⟨rfl, rfl, rfl⟩,
    weightState_fault, weightState_filling, fun r h hr => ?_, appliedTare_noTare, fun g h => ?_,
    fun p hp => formVerdict_pinned hp d proof⟩
  · have hgross := shownGross_hidden h1 h2
    refine ⟨hgross, ?_⟩
    show (shownGross ch).map _ = none
    rw [hgross]
    rfl
  · have hgross := shownGross_shown h hr
    refine ⟨hgross, ?_⟩
    show (shownGross ch).map _ = _
    rw [hgross]
    rfl
  · rw [← he]
    exact formVerdict_weight h hr d proof
  · rw [← he]
    exact appliedTare_grams h

end Sys2Proof.Machine
end

section
/-! The weighing actions ZERO, TARE, PTARE, CLRTARE and QTY: their checks in order and what they store (R38 to R42, R45,
R64). -/

namespace Sys2Proof.Machine

/-! ## Weighing actions taken (R15, R45) -/

section
variable {s : State} {a : Nat}

theorem State.exec_zero (h : s.takes a) : exec (.zero a) s = .next ((s.markTaken a).takeZero a) :=
  congrArg _ (State.deliverAction_takes h _)

theorem State.exec_tare (h : s.takes a) : exec (.tare a) s = .next ((s.markTaken a).takeTare a) :=
  congrArg _ (State.deliverAction_takes h _)

theorem State.exec_ptare (h : s.takes a) (g : Nat) : exec (.ptare a g) s = .next ((s.markTaken a).takePtare a g) :=
  congrArg _ (State.deliverAction_takes h _)

theorem State.exec_clrtare (h : s.takes a) : exec (.clrtare a) s = .next ((s.markTaken a).takeClrtare a) :=
  congrArg _ (State.deliverAction_takes h _)

theorem State.exec_qty (h : s.takes a) (n : Nat) : exec (.qty a n) s = .next ((s.markTaken a).takeQty a n) :=
  congrArg _ (State.deliverAction_takes h _)

/-- An accepted action evaluates the changed channel and answers OK (R45). -/
theorem State.weighs_of_weighOk (h : s.takes a) {i : Instr} {code : Nat} {ch : Channel}
    (hi : exec i s = .next ((s.markTaken a).weighOk a code ch)) : s.weighs i a code ch := by
  obtain ⟨hserving, hroom⟩ := State.takes_room h
  obtain ⟨u, hu⟩ : ∃ u, u = (s.markTaken a).setChannel a ch := ⟨_, rfl⟩
  have hch : u.channel a = ch := by rw [hu]; simp
  have hv : u.verdictOf a = s.verdictOf a := by rw [hu]; exact State.verdictOf_congr (s := s) rfl (s.markTaken_state a a)
  have hset : Offers a 0 (s.markTaken a) u := .of_lc (by rw [hu]; rfl)
  have hoffers := hset.trans (State.evaluate_offers u a)
  have ht : (s.markTaken a).weighOk a code ch = (u.evaluate a).reply a code .ok [] := by rw [hu]; rfl
  have hwe : ((u.evaluate a).reply a code .ok []).we = (u.evaluate a).we :=
    (State.reply_changes (m := [.lc]) a code .ok [] (Changes.refl _ _) rfl).same .we rfl
  refine ⟨_, hi, ?_, ?_, ?_, fun b hb => ?_, ?_⟩
  · rw [ht]
    exact hoffers.answered hserving (by omega)
  · rw [ht]
    exact State.took_of_offers (hoffers.trans (State.reply_offers _ a code .ok []))
  · rw [ht, State.channel_of_we hwe, State.evaluate_channel, hch, hv]
  · rw [ht, State.channel_of_we hwe, State.evaluate_channel_ne _ hb, hu, State.channel_setChannel, if_neg hb,
      State.markTaken_channel]
  · exact State.weighOk_changes a code ch (State.markTaken_changes a (Changes.refl _ s) rfl) rfl

end

/-! ## The owner's answers (R38, R40 to R42, R64) -/

section
variable (s : State) {a : Nat}

theorem State.takeZero_motion (h : (s.channel a).motion ≠ .stable) : s.takeZero a = s.reply a 6 .motion [] := by
  unfold State.takeZero
  dsimp only
  split
  · contradiction
  · rfl

theorem State.takeTare_motion (h : (s.channel a).motion ≠ .stable) : s.takeTare a = s.reply a 3 .motion [] := by
  unfold State.takeTare
  dsimp only
  split
  · contradiction
  · rfl

section
variable {r : FilterResult} (hm : (s.channel a).motion = .stable) (hr : (s.channel a).result = some r)
include hm hr

/-- ZERO with a stable reading (R38). -/
theorem State.takeZero_stable : s.takeZero a =
    if (s.channel a).tare ≠ .noTare then s.reply a 6 .wrongState []
    else if (s.channel a).config.max / 5 < r.f.natAbs then s.reply a 6 .zeroRange []
    else s.weighOk a 6 (refreshGross { s.channel a with zero := r.f } r.f) := by
  simp only [State.takeZero, hm, hr]

/-- TARE with a stable reading (R40). -/
theorem State.takeTare_stable : s.takeTare a =
    if 0 < r.gross ∧ r.gross ≤ (s.channel a).config.tareLimit ∧ weightState (s.channel a) ≠ .overload then
      s.weighOk a 3 { s.channel a with tare := .weighed r.gross.toNat }
    else s.reply a 3 .tareRange [] := by
  simp only [State.takeTare, hm, hr]

end

theorem State.takePtare_keyed {g : Nat} (h : 1 ≤ g) : s.takePtare a g =
    if g ≤ (s.channel a).config.tareLimit then s.weighOk a 4 { s.channel a with tare := .keyed g }
    else s.reply a 4 .tareRange [] :=
  if_neg (by omega)

theorem State.takePtare_refused {g : Nat} (h : (s.channel a).tare = .weighed g ∨ (s.channel a).tare = .preset g) :
    s.takePtare a 0 = s.reply a 4 .wrongState [] := by
  rcases h with h | h <;> simp only [State.takePtare, h, if_true]

theorem State.takePtare_cleared {g : Nat} (h : (s.channel a).tare = .noTare ∨ (s.channel a).tare = .keyed g) :
    s.takePtare a 0 = s.weighOk a 4 { s.channel a with tare := .noTare } := by
  rcases h with h | h
  · have hsame : { s.channel a with tare := .noTare } = s.channel a := by rw [← h]
    simp only [State.takePtare, h, if_true, hsame]
  · simp only [State.takePtare, h, if_true]

theorem countPin_iff {ch : Channel} : countPin ch = true ↔ ∃ p, ch.ctx.pin = some p ∧ p.content.mode = .byCount := by
  unfold countPin
  cases ch.ctx.pin <;> simp

theorem State.takeQty_eq (n : Nat) : s.takeQty a n =
    if countPin (s.channel a) = true then
      if n < 1 ∨ 99 < n then s.reply a 7 .badValue []
      else s.weighOk a 7 { s.channel a with ctx := { (s.channel a).ctx with quantity := some n } }
    else s.reply a 7 .wrongState [] := by
  unfold State.takeQty
  cases h : countPin (s.channel a) <;> simp [h]

end

/-- The channel after ZERO: the fine weight and the gross are 0, which lies in range 1 (R34, R35, R38). -/
theorem refreshGross_zero (ch : Channel) (f : Int) : refreshGross { ch with zero := f } f =
    { ch with zero := f, range := .range1, result := some { f := f, fine := 0, gross := 0 } } := by
  have hrange : rangeAfter ch.config ch.range 0 = .range1 := by
    unfold rangeAfter
    cases ch.range <;> simp
  have hgross : ∀ e : Nat, grossOf 0 e = 0 := fun e => by
    unfold grossOf
    rcases Nat.eq_zero_or_pos e with h | h
    · simp [h]
    · rw [Int.ediv_eq_zero_of_lt (by omega) (by omega), mul_zero]
  simp only [refreshGross, sub_self, hrange, hgross]

/-- Settles O42. -/
theorem weighingActionsAct : Obligations.WeighingActionsAct := by
  intro s a h ch
  have hch : (s.markTaken a).channel a = ch := s.markTaken_channel a a
  refine ⟨fun hm => ⟨?_, ?_⟩, fun r hm hr => ?_, fun g h1 h2 => ?_, fun g h1 h2 => ?_, fun g hg => ?_, fun g hg => ?_,
    State.weighs_of_weighOk h (State.exec_clrtare h), fun n hp => ?_, fun p n hp hc => ?_⟩
  · exact (State.exec_zero h).trans (congrArg _ (State.takeZero_motion _ (hch ▸ hm)))
  · exact (State.exec_tare h).trans (congrArg _ (State.takeTare_motion _ (hch ▸ hm)))
  · have hzero := (State.exec_zero h).trans (congrArg _ (State.takeZero_stable _ (hch ▸ hm) (hch ▸ hr)))
    have htare := (State.exec_tare h).trans (congrArg _ (State.takeTare_stable _ (hch ▸ hm) (hch ▸ hr)))
    rw [hch] at hzero htare
    refine ⟨fun ht => ?_, fun ht hf => ?_, fun ht hf => ?_, fun hg => ?_, fun h1 h2 h3 => ?_⟩
    · rwa [if_pos ht] at hzero
    · rwa [if_neg (not_not.mpr ht), if_pos hf] at hzero
    · rw [if_neg (not_not.mpr ht), if_neg (not_lt.mpr hf), refreshGross_zero] at hzero
      exact State.weighs_of_weighOk h hzero
    · rwa [if_neg hg] at htare
    · rw [if_pos ⟨h1, h2, h3⟩] at htare
      exact State.weighs_of_weighOk h htare
  · have hptare := (State.exec_ptare h g).trans (congrArg _ (State.takePtare_keyed _ h1))
    rw [hch, if_pos h2] at hptare
    exact State.weighs_of_weighOk h hptare
  · have hptare := (State.exec_ptare h g).trans (congrArg _ (State.takePtare_keyed _ h1))
    rwa [hch, if_neg (not_le.mpr h2)] at hptare
  · exact (State.exec_ptare h 0).trans (congrArg _ (State.takePtare_refused _ (hch ▸ hg)))
  · have hptare := (State.exec_ptare h 0).trans (congrArg _ (State.takePtare_cleared _ (hch ▸ hg)))
    rw [hch] at hptare
    exact State.weighs_of_weighOk h hptare
  · have hqty := (State.exec_qty h n).trans (congrArg _ (State.takeQty_eq _ n))
    have hcount : ¬ countPin ch = true := fun hc => by
      obtain ⟨p, hpin, hmode⟩ := countPin_iff.mp hc
      exact hp p hpin hmode
    rwa [hch, if_neg hcount] at hqty
  · have hqty := (State.exec_qty h n).trans (congrArg _ (State.takeQty_eq _ n))
    rw [hch, if_pos (countPin_iff.mpr ⟨p, hp, hc⟩)] at hqty
    refine ⟨fun hn => ?_, fun h1 h2 => ?_⟩
    · rwa [if_pos hn] at hqty
    · rw [if_neg (by omega)] at hqty
      exact State.weighs_of_weighOk h hqty

end Sys2Proof.Machine
end

section
/-! STN.CONFIG and WCH.SET: their checks and the configurations they store (R26, R27, R164, R165). -/

namespace Sys2Proof.Machine

/-- A command transaction that leaves the state u stores its answer there (R183). -/
theorem State.transact_responds {s u : State} {code : Byte} {body : List Byte} {run : State → State × Answer}
    {r : Answer} (hr : s.op.resetLow = false) (hl : body.length ≤ 255) (hrun : run s = (u, r)) :
    s.transact code body run = u.responded code r.result r.clamped r.body (3 + body.length) :=
  State.transact_runs hr hl hrun

theorem isScale_iff {a : Nat} : isScale a = true ↔ 1 ≤ a ∧ a ≤ 16 := by
  simp [isScale]

/-! ## STN.CONFIG (R26, R27) -/

/-- The ranges of R26. -/
theorem configSound_iff (c : MetroConfig) : configSound c = true ↔
    1000 ≤ c.max ∧ c.max ≤ 30000 ∧ c.split < c.max ∧ c.e1 ∈ [1, 2, 5, 10]
      ∧ (c.split = 0 ∨ c.e2 ∈ [2, 5, 10, 20] ∧ c.e1 < c.e2) ∧ 1 ≤ c.k ∧ c.k ≤ 4 ∧ 1 ≤ c.band ∧ c.band ≤ 100
      ∧ 1 ≤ c.count ∧ c.count ≤ 8 ∧ c.spike ≤ 1000 ∧ c.tareLimit ≤ c.max := by
  simp only [configSound, Bool.and_eq_true, Bool.or_eq_true, decide_eq_true_eq, beq_iff_eq, List.contains_iff_mem,
    and_assoc]

/-- STN.CONFIG with a body of its length (R27). -/
theorem State.stnConfig_eq (s : State) {body : List Byte} (hl : body.length = 15) : s.stnConfig body =
    if isScale (field body 1 1) = true then
      if (s.station (field body 1 1)).state = .off then
        if configSound (configOf body) = true ∧ field body 15 1 ≤ 1 then
          (s.setChannel (field body 1 1) { s.channel (field body 1 1) with config := configOf body }, .ok [])
        else (s, .refuse .badArg)
      else (s, .refuse .wrongState)
    else (s, .refuse .badArg) := by
  by_cases h1 : isScale (field body 1 1) <;> by_cases h2 : (s.station (field body 1 1)).state = .off <;>
    simp [State.stnConfig, hl, h1, h2]

theorem State.exec_stnConfig {s u : State} {body : List Byte} {r : Answer} (hr : s.op.resetLow = false)
    (hl : body.length = 15) (h : s.stnConfig body = (u, r)) :
    exec (.stnConfig body) s = .next (u.responded 32 r.result r.clamped r.body 18) := by
  show Host.Outcome.next (s.transact 32 body (fun t => t.stnConfig body)) = _
  rw [State.transact_responds hr (by omega) h, hl]

/-! ## WCH.SET (R164, R165) -/

theorem maskOf_maskCode (k : WatchMask) : maskOf (maskCode k) = some k := by
  cases k <;> rfl

theorem watchActionOf_code (x : WatchAction) : watchActionOf (watchActionCode x) = some x := by
  cases x <;> rfl

theorem maskCode_of_maskOf {m : Nat} {k : WatchMask} (h : maskOf m = some k) : maskCode k = m := by
  unfold maskOf at h
  split at h <;> cases h <;> rfl

theorem watchActionCode_of {m : Nat} {x : WatchAction} (h : watchActionOf m = some x) : watchActionCode x = m := by
  unfold watchActionOf at h
  split at h <;> cases h <;> rfl

theorem maskCode_onto {m : Nat} (h1 : 1 ≤ m) (h2 : m ≤ 4) : ∃ k, maskCode k = m := by
  interval_cases m
  · exact ⟨.exact, rfl⟩
  · exact ⟨.group16, rfl⟩
  · exact ⟨.group256, rfl⟩
  · exact ⟨.any, rfl⟩

theorem watchActionCode_onto {m : Nat} (h1 : 1 ≤ m) (h2 : m ≤ 3) : ∃ x, watchActionCode x = m := by
  interval_cases m
  · exact ⟨.note, rfl⟩
  · exact ⟨.hold, rfl⟩
  · exact ⟨.block, rfl⟩

theorem watchActionCode_range (x : WatchAction) : 1 ≤ watchActionCode x ∧ watchActionCode x ≤ 3 := by
  cases x <;> decide

/-- The masks with the article numbers that each accepts (R164). -/
theorem maskArticle_iff (k : WatchMask) (n : Nat) : maskArticle k n = true ↔
    maskCode k = 1 ∧ 1 ≤ n ∧ n ≤ 2048 ∨ (maskCode k = 2 ∨ maskCode k = 3) ∧ n ≤ 2048 ∨ maskCode k = 4 ∧ n = 0 := by
  cases k <;> simp [maskArticle, maskCode]

/-- A body whose fields are in the accepted values of R165. -/
def watchSound (body : List Byte) : Prop :=
  (field body 1 1 = 1 ∨ field body 1 1 = 2) ∧ field body 2 1 ≤ 1 ∧ field body 3 1 ≤ 3
    ∧ (field body 4 1 = 1 ∧ 1 ≤ field body 5 2 ∧ field body 5 2 ≤ 2048
      ∨ (field body 4 1 = 2 ∨ field body 4 1 = 3) ∧ field body 5 2 ≤ 2048 ∨ field body 4 1 = 4 ∧ field body 5 2 = 0)
    ∧ field body 7 1 ≤ 24 ∧ field body 8 3 ≤ 999999 ∧ 1 ≤ field body 11 1 ∧ field body 11 1 ≤ 3
    ∧ field body 12 1 ≤ 1 ∧ ¬ (field body 1 1 = 1 ∧ field body 12 1 = 1)

/-- The channel of an accepted body (R165), with match count 0. -/
theorem watchOf_sound {body : List Byte} (h : watchSound body) : ∃ w, watchOf body = some w
    ∧ w.enable = decide (field body 2 1 = 1) ∧ w.onAdd = decide (field body 3 1 % 2 = 1)
    ∧ w.onVoid = decide (2 ≤ field body 3 1) ∧ maskCode w.mask = field body 4 1 ∧ w.article = field body 5 2
    ∧ w.clerk = field body 7 1 ∧ w.threshold = field body 8 3 ∧ watchActionCode w.action = field body 11 1
    ∧ w.sequential = decide (field body 12 1 = 1) ∧ w.count = 0 := by
  obtain ⟨hchannel, henable, hevents, hmask, hclerk, hthreshold, hact1, hact2, hseq, ha⟩ := h
  obtain ⟨k, hk⟩ := maskCode_onto (m := field body 4 1) (by omega) (by omega)
  obtain ⟨x, hx⟩ := watchActionCode_onto hact1 hact2
  have hkOf : maskOf (field body 4 1) = some k := by rw [← hk, maskOf_maskCode]
  have hxOf : watchActionOf (field body 11 1) = some x := by rw [← hx, watchActionOf_code]
  have harticle : maskArticle k (field body 5 2) = true := (maskArticle_iff k _).mpr (by rw [hk]; exact hmask)
  have hvoid : field body 3 1 / 2 = 1 ↔ 2 ≤ field body 3 1 := by omega
  unfold watchOf
  rw [hkOf, hxOf]
  dsimp only
  rw [if_pos ⟨hchannel, henable, hevents, harticle, hclerk, hthreshold, hseq, ha⟩]
  exact ⟨_, rfl, rfl, rfl, decide_eq_decide.mpr hvoid, hk, rfl, rfl, rfl, hx, rfl, rfl⟩

theorem watchOf_unsound {body : List Byte} (h : ¬ watchSound body) : watchOf body = none := by
  unfold watchOf
  split
  · rename_i k x hk hx
    refine if_neg (fun hc => h ?_)
    obtain ⟨hchannel, henable, hevents, harticle, hclerk, hthreshold, hseq, ha⟩ := hc
    obtain ⟨hact1, hact2⟩ := watchActionCode_range x
    rw [watchActionCode_of hx] at hact1 hact2
    rw [maskArticle_iff, maskCode_of_maskOf hk] at harticle
    exact ⟨hchannel, henable, hevents, harticle, hclerk, hthreshold, hact1, hact2, hseq, ha⟩
  · rfl

/-- WCH.SET with a body of its length that names a channel (R165). -/
theorem State.wchSet_stores (s : State) {body : List Byte} {w : WatchChannel} (hl : body.length = 12)
    (hw : watchOf body = some w) : s.wchSet body =
      ({ s with wu := if field body 1 1 = 1 then { s.wu with a := w } else { s.wu with b := w } }, .ok []) := by
  unfold State.wchSet
  rw [if_neg (by omega), hw]
  dsimp only
  split <;> rfl

theorem State.wchSet_refused (s : State) {body : List Byte} (hl : body.length = 12) (hw : watchOf body = none) :
    s.wchSet body = (s, .refuse .badArg) := by
  unfold State.wchSet
  rw [if_neg (by omega), hw]

theorem State.exec_wchSet {s u : State} {body : List Byte} {r : Answer} (hr : s.op.resetLow = false)
    (hl : body.length = 12) (h : s.wchSet body = (u, r)) :
    exec (.wchSet body) s = .next (u.responded 96 r.result r.clamped r.body 15) := by
  show Host.Outcome.next (s.transact 96 body (fun t => t.wchSet body)) = _
  rw [State.transact_responds hr (by omega) h, hl]

/-- Settles O29. -/
theorem configurationsStored : Obligations.ConfigurationsStored := by
  refine fun s body hr => ⟨fun hl => ?_, fun hl => ?_⟩
  · intro a c sound
    have hrun := s.stnConfig_eq hl
    have hsound : configSound (configOf body) = true ∧ field body 15 1 ≤ 1 ↔ sound := by
      rw [configSound_iff]
      simp only [and_assoc]
      rfl
    refine ⟨fun h => ?_, fun h1 h2 h => ?_, fun h1 h2 h hs => ?_, fun h1 h2 h hs => ?_⟩
    · rw [if_neg (by rw [isScale_iff]; omega)] at hrun
      exact State.exec_stnConfig hr hl hrun
    · rw [if_pos (isScale_iff.mpr ⟨h1, h2⟩), if_neg h] at hrun
      exact State.exec_stnConfig hr hl hrun
    · rw [if_pos (isScale_iff.mpr ⟨h1, h2⟩), if_pos h, if_neg (fun hc => hs (hsound.mp hc))] at hrun
      exact State.exec_stnConfig hr hl hrun
    · rw [if_pos (isScale_iff.mpr ⟨h1, h2⟩), if_pos h, if_pos (hsound.mpr hs)] at hrun
      exact State.exec_stnConfig hr hl hrun
  · intro m n sound
    refine ⟨fun hs => State.exec_wchSet hr hl (s.wchSet_refused hl (watchOf_unsound hs)), fun hs => ?_⟩
    obtain ⟨w, hw, henable, hadd, hvoid, hmask, harticle, hclerk, hthreshold, haction, hseq, hcount⟩ := watchOf_sound hs
    exact ⟨w, henable, hadd, hvoid, hmask, harticle, hclerk, hthreshold, haction, hseq, hcount,
      State.exec_wchSet hr hl (s.wchSet_stores hl hw)⟩

end Sys2Proof.Machine
end

section
/-! SELECT: the pin with its tare and quantity, the copy map at a NORMAL scale, the eviction, and the release of the earlier
pin (R43, R87 to R90, R93 to R95, R97, R100, R101). -/

namespace Sys2Proof.Machine

/-! ## The new pin in place of the earlier one (R43, R44, R93, R95) -/

/-- The channel of a scale whose earlier pin, if there is one, has been taken away (R44). -/
def beforePin (ch : Channel) : Channel := if ch.ctx.pin.isSome then unpinned ch else ch

/-- The state after step 2 of R95: the earlier pin is gone and the new one stands. -/
def State.repinned (s : State) (a : Nat) (p : Snapshot) : State := (s.unpin a).pin a p

section
variable (s : State) (a : Nat) (p : Snapshot)

theorem State.repinned_changes : Changes [.we, .art] s (s.repinned a p) :=
  State.pin_changes a p (State.unpin_changes a (Changes.refl _ s) rfl) rfl

theorem State.repinned_lc : (s.repinned a p).lc = s.lc := (s.repinned_changes a p).same .lc rfl

theorem State.repinned_cd : (s.repinned a p).cd = s.cd := (s.repinned_changes a p).same .cd rfl

theorem State.repinned_op : (s.repinned a p).op = s.op := (s.repinned_changes a p).same .op rfl

theorem State.repinned_channel (b : Nat) : (s.repinned a p).channel b =
    if b = a then pinnedWith (beforePin (s.channel a)) p else s.channel b := by
  show ((s.unpin a).setChannel a (pinnedWith ((s.unpin a).channel a) p)).channel b = _
  rw [State.channel_setChannel, State.unpin_channel, State.unpin_channel]
  by_cases hb : b = a <;> simp [hb, beforePin]

theorem State.repinned_article (n : Nat) : (s.repinned a p).article n =
    if n = p.number then { (s.unpin a).article n with pins := setInsert a ((s.unpin a).article n).pins }
    else (s.unpin a).article n := by
  unfold State.repinned State.pin
  dsimp only
  rw [State.article_setArticle]
  split
  · rename_i h
    rw [h]
    rfl
  · rfl

end

/-! ## The copy map (R87 to R90, R95) -/

/-- A first entry for article n may be made or evicted for at scale a (R89, R95): NORMAL, no entry yet, no change in flight
and no "all" in the backlog. -/
def State.copyWanted (s : State) (a n : Nat) : Prop :=
  (s.station a).state = .normal ∧ copyOf (s.copyMap a) n = none ∧ s.changeOf n = none ∧ (s.station a).backlog ≠ .all

/-- The state with a FILL at the tail of a scale's queue, its entry first in the copy map and the scale a holder (R87). -/
def State.filled (s : State) (a : Nat) (p : Snapshot) : State :=
  let t := (s.setStation a { s.station a with queue := append (s.station a).queue (.fill p) }).setCopyMap a
    ({ article := p.number, revision := p.revision, purging := false } :: s.copyMap a)
  t.setArticle p.number { s.article p.number with holders := setInsert a (s.article p.number).holders }

section
variable {s : State} {a : Nat} {p : Snapshot}

theorem State.updateCopy_held {e : CopyEntry} (h : copyOf (s.copyMap a) p.number = some e) :
    s.updateCopy a p = (s.setCopyMap a (e :: withoutCopy (s.copyMap a) p.number), []) := by
  unfold State.updateCopy
  simp only [h]

theorem State.updateCopy_waits (h : copyOf (s.copyMap a) p.number = none)
    (hc : s.changeOf p.number ≠ none ∨ (s.station a).backlog = .all) : s.updateCopy a p = (s, []) := by
  unfold State.updateCopy
  simp only [h]
  split
  · rfl
  · rename_i hn
    rw [if_pos (hc.resolve_left (by simpa using hn))]

theorem State.updateCopy_fills (h : s.copyWanted a p.number) (hl : (s.copyMap a).length < 32)
    (hf : 3 ≤ free (s.station a).queue) : s.updateCopy a p = (s.filled a p, []) := by
  obtain ⟨-, hnone, hchange, hall⟩ := h
  have hneed : stillNeeded (s.station a).queue ≤ 2 := by
    unfold stillNeeded
    split <;> omega
  unfold State.updateCopy
  simp only [hnone, hchange]
  rw [if_neg (by simp), if_neg hall, if_neg (by omega), if_neg (by omega)]
  rfl

/-- A full map evicts its last VALID entry (R88). -/
theorem State.updateCopy_evicts {k : Nat} (h : s.copyWanted a p.number) (hl : 32 ≤ (s.copyMap a).length)
    (hk : lastValid (s.copyMap a) = some k) : s.updateCopy a p = s.offerPurge a k := by
  obtain ⟨-, hnone, hchange, hall⟩ := h
  unfold State.updateCopy
  simp only [hnone, hchange, hk]
  rw [if_neg (by simp), if_neg hall, if_pos hl]

theorem State.updateCopy_noneValid (h : s.copyWanted a p.number) (hl : 32 ≤ (s.copyMap a).length)
    (hk : lastValid (s.copyMap a) = none) : s.updateCopy a p = (s, []) := by
  obtain ⟨-, hnone, hchange, hall⟩ := h
  unfold State.updateCopy
  simp only [hnone, hchange, hk]
  rw [if_neg (by simp), if_neg hall, if_pos hl]

/-- An unsent FILL of the evicted article is withdrawn with the entry, and the freed place refilled (R20, R90). -/
theorem State.offerPurge_withdraws {n : Nat} (hs : s.inService a = true)
    (hq : (s.station a).queue.any (unsent (isFillOf n)) = true) : s.offerPurge a n =
      (((s.setStation a { s.station a with queue := withdrawUnsent (isFillOf n) (s.station a).queue }).removeCopy a n).refill
        a, [n]) := by
  simp [State.offerPurge, hs, hq]

/-- Without such a FILL the PURGE takes a free place (R20, R90). -/
theorem State.offerPurge_appends {n : Nat} (hs : s.inService a = true)
    (hq : (s.station a).queue.any (unsent (isFillOf n)) = false) (hf : 0 < free (s.station a).queue) :
    s.offerPurge a n =
      ((s.setStation a { s.station a with queue := append (s.station a).queue (.purge n) }).markPurging a n, []) := by
  unfold State.offerPurge
  dsimp only
  rw [hs, hq, if_neg (by simp), if_neg (by simp), if_pos hf]

end

theorem lastValid_at {l r : List CopyEntry} {e : CopyEntry} (he : e.purging = false) (hr : ∀ y ∈ r, y.purging = true) :
    lastValid (l ++ e :: r) = some e.article := by
  have hnil : r.filter (fun y => !y.purging) = [] := by simpa using hr
  simp [lastValid, he, hnil]

theorem lastValid_none {m : List CopyEntry} (h : ∀ y ∈ m, y.purging = true) : lastValid m = none := by
  have hnil : m.filter (fun y => !y.purging) = [] := by simpa using h
  simp [lastValid, hnil]

/-! ## FILLs that were there before -/

/-- Scale a has no FILL in its queue that it did not have before. -/
def State.NoNewFill (s t : State) (a : Nat) : Prop :=
  ∀ e ∈ (t.station a).queue, isFill e.msg = true → e ∈ (s.station a).queue

theorem mem_of_replaceUnsent {p : DownMsg → Bool} {m : DownMsg} {q : List Entry} {e : Entry}
    (h : e ∈ replaceUnsent p m q) : e = { msg := m, sent := false } ∨ e ∈ q := by
  induction q with
  | nil => cases h
  | cons x rest ih =>
    unfold replaceUnsent at h
    split at h
    · rcases List.mem_cons.mp h with h | h
      · exact .inl h
      · exact .inr (List.mem_cons_of_mem _ h)
    · rcases List.mem_cons.mp h with h | h
      · exact .inr (h ▸ List.mem_cons_self)
      · exact (ih h).imp_right (List.mem_cons_of_mem _)

theorem withdrawUnsent_subset (p : DownMsg → Bool) (q : List Entry) : withdrawUnsent p q ⊆ q := by
  induction q with
  | nil => exact List.Subset.refl _
  | cons x rest ih =>
    unfold withdrawUnsent
    split
    · exact List.subset_cons_self _ _
    · exact List.cons_subset_cons _ ih

theorem State.NoNewFill.trans {s t u : State} {a : Nat} (h : s.NoNewFill t a) (g : t.NoNewFill u a) : s.NoNewFill u a :=
  fun e he hf => h e (g e he hf) hf

theorem State.NoNewFill.of_lc {s t : State} (h : t.lc = s.lc) (a : Nat) : s.NoNewFill t a := fun e he _ => by
  rwa [State.station_of_lc h] at he

/-- A new record of the station whose queue holds old entries and messages that are no FILL. -/
theorem State.NoNewFill.setStation (s : State) (a : Nat) {r : Station}
    (h : ∀ e ∈ r.queue, e ∈ (s.station a).queue ∨ isFill e.msg = false) : s.NoNewFill (s.setStation a r) a :=
  fun e he hf => by
    rw [State.station_setStation, if_pos rfl] at he
    exact (h e he).resolve_right (by simp [hf])

/-- An old queue with a message at its tail that is no FILL. -/
theorem State.NoNewFill.append {s : State} {a : Nat} {r : Station} {m : DownMsg}
    (hq : r.queue = append (s.station a).queue m) (hm : isFill m = false) : s.NoNewFill (s.setStation a r) a :=
  .setStation s a (fun e he => by
    rw [hq] at he
    rcases List.mem_append.mp he with he | he
    · exact .inl he
    · exact .inr (List.mem_singleton.mp he ▸ hm))

theorem State.offerVerdict_noNewFill (s : State) (a : Nat) : s.NoNewFill (s.offerVerdict a) a := by
  unfold State.offerVerdict
  dsimp only
  split
  · split
    · exact .setStation s a (fun e he => (mem_of_replaceUnsent he).symm.imp_right (fun h => by rw [h]; rfl))
    · split
      · exact .append rfl rfl
      · exact .setStation s a (fun e he => .inl he)
  · exact .of_lc rfl a

theorem State.evaluate_noNewFill (s : State) (a : Nat) : s.NoNewFill (s.evaluate a) a := by
  unfold State.evaluate
  dsimp only
  split
  · exact .of_lc rfl a
  · exact State.offerVerdict_noNewFill _ a

theorem State.reply_noNewFill (s : State) (a action : Nat) (code : ReplyCode) (data : List Byte) :
    s.NoNewFill (s.reply a action code data) a := by
  unfold State.reply State.offerTail
  dsimp only
  split
  · split
    · exact .append rfl rfl
    · exact .of_lc rfl a
  · exact .of_lc rfl a

theorem State.refill_noNewFill (s : State) (a : Nat) : s.NoNewFill (s.refill a) a := by
  unfold State.refill
  dsimp only
  split
  · split
    · exact .append rfl rfl
    · exact .append rfl rfl
    · split
      · exact .append rfl rfl
      · exact .of_lc rfl a
  · exact .of_lc rfl a

/-- A REPLY leaves what stands in the queue. -/
theorem State.reply_mem {s : State} {a action : Nat} {code : ReplyCode} {data : List Byte} {e : Entry}
    (h : e ∈ (s.station a).queue) : e ∈ ((s.reply a action code data).station a).queue := by
  unfold State.reply State.offerTail
  dsimp only
  split
  · split
    · rw [State.station_setStation, if_pos rfl]
      exact List.mem_append_left _ h
    · exact h
  · exact h

/-! ## The eviction (R20, R88, R90) -/

theorem State.removeCopy_article (s : State) (a k n : Nat) : (s.removeCopy a k).article n =
    if n = k then { s.article n with holders := setErase a (s.article n).holders } else s.article n :=
  State.leaveHolders_article (s.setCopyMap a (withoutCopy (s.copyMap a) k)) a k n

/-- What the eviction of article n from scale a's full map leaves (R20, R88, R90), where the queue has room: a FILL not yet
sent is withdrawn with its entry and holder mark, and otherwise the entry is PURGING and its PURGE queued. -/
structure State.Evicted (s t : State) (a n : Nat) : Prop where
  changes : Changes [.lc, .cd, .art] s t
  offers : Offers a 1 s t
  pins : ∀ k, (t.article k).pins = (s.article k).pins
  noFill : s.NoNewFill t a
  purged : (s.station a).queue.any (unsent (isFillOf n)) = false →
    t.copyMap a = (s.copyMap a).map (fun y => if y.article = n then { y with purging := true } else y)
    ∧ { msg := .purge n, sent := false } ∈ (t.station a).queue
  withdrawn : (s.station a).queue.any (unsent (isFillOf n)) = true →
    t.copyMap a = withoutCopy (s.copyMap a) n ∧ a ∉ (t.article n).holders

section
variable {s : State} {a n : Nat} (hs : s.inService a = true)
include hs

theorem State.offerPurge_queued (hq : (s.station a).queue.any (unsent (isFillOf n)) = false)
    (hf : 0 < free (s.station a).queue) : s.Evicted (s.offerPurge a n).1 a n := by
  have hchanges : Changes [.lc, .cd, .art] s (s.offerPurge a n).1 := State.offerPurge_changes a n (Changes.refl _ s) rfl
  rw [State.offerPurge_appends hs hq hf] at hchanges ⊢
  obtain ⟨w, hw⟩ : ∃ w, w = s.setStation a
      { s.station a with queue := append (s.station a).queue (.purge n) } := ⟨_, rfl⟩
  have hroom : ordinary (append (s.station a).queue (.purge n)) ≤ ordinary (s.station a).queue + 1 :=
    (ordinary_append _ _).le
  have hoffers : Offers a 1 s w := hw ▸ .setQueue s a 1 _ (s.station a).backlog (s.station a).showOwed hroom
  have hnew : s.NoNewFill w a := hw ▸ .append rfl rfl
  have hmem : { msg := .purge n, sent := false } ∈ (w.station a).queue := by
    rw [hw, State.station_setStation, if_pos rfl]
    simp [append]
  have hcopy : w.copyMap a = s.copyMap a := by rw [hw]; rfl
  have harticle : ∀ k, w.article k = s.article k := fun k => by rw [hw]; rfl
  rw [← hw] at hchanges ⊢
  refine ⟨hchanges, hoffers.then_lc rfl, fun k => congrArg Article.pins (harticle k), hnew.trans (.of_lc rfl a),
    fun _ => ⟨?_, hmem⟩, fun h => absurd (h.symm.trans hq) (by simp)⟩
  unfold State.markPurging
  rw [State.copyMap_setCopyMap, if_pos rfl, hcopy]

theorem State.offerPurge_withdrawn (hq : (s.station a).queue.any (unsent (isFillOf n)) = true) :
    s.Evicted (s.offerPurge a n).1 a n := by
  have hchanges : Changes [.lc, .cd, .art] s (s.offerPurge a n).1 := State.offerPurge_changes a n (Changes.refl _ s) rfl
  rw [State.offerPurge_withdraws hs hq] at hchanges ⊢
  obtain ⟨w, hw⟩ : ∃ w, w = s.setStation a
      { s.station a with queue := withdrawUnsent (isFillOf n) (s.station a).queue } := ⟨_, rfl⟩
  have hoffers : Offers a 0 s w :=
    hw ▸ .setQueue s a 0 _ (s.station a).backlog (s.station a).showOwed (ordinary_withdrawUnsent_le _ _)
  have hnew : s.NoNewFill w a := hw ▸ .setStation s a (fun e he => .inl (withdrawUnsent_subset _ _ he))
  have hremove : Changes [.cd, .art] w (w.removeCopy a n) := State.removeCopy_changes a n (Changes.refl _ w) rfl
  have hrefill : Changes [.lc] (w.removeCopy a n) ((w.removeCopy a n).refill a) :=
    State.refill_changes a (Changes.refl _ _) rfl
  have harticle : ∀ k, ((w.removeCopy a n).refill a).article k =
      if k = n then { s.article k with holders := setErase a (s.article k).holders } else s.article k := fun k => by
    rw [State.article_of_art (hrefill.same .art rfl), State.removeCopy_article, hw]
    rfl
  have hcopy : ((w.removeCopy a n).refill a).copyMap a = withoutCopy (s.copyMap a) n := by
    rw [State.copyMap_of_cd (hrefill.same .cd rfl)]
    show (w.setCopyMap a (withoutCopy (w.copyMap a) n)).copyMap a = _
    rw [State.copyMap_setCopyMap, if_pos rfl, hw]
    rfl
  rw [← hw] at hchanges ⊢
  refine ⟨hchanges, (hoffers.then_lc (hremove.same .lc rfl)).trans (State.refill_offers _ a), fun k => ?_,
    (hnew.trans (.of_lc (hremove.same .lc rfl) a)).trans (State.refill_noNewFill _ a),
    fun h => absurd (h.symm.trans hq) (by simp), fun _ => ⟨hcopy, ?_⟩⟩
  · rw [harticle]
    split <;> rfl
  · rw [harticle, if_pos rfl]
    exact not_mem_setErase _ _

theorem State.offerPurge_evicted (n : Nat) (hf : 0 < free (s.station a).queue) :
    s.Evicted (s.offerPurge a n).1 a n := by
  cases hq : (s.station a).queue.any (unsent (isFillOf n)) with
  | false => exact State.offerPurge_queued hs hq hf
  | true => exact State.offerPurge_withdrawn hs hq

end

/-! ## What every update of the copy map leaves -/

/-- What the copy map's part in a SELECT leaves whichever of its cases it takes (R87 to R89): r is the state and the articles
that lost the scale as a holder. -/
structure State.CopyStep (s : State) (a : Nat) (p : Snapshot) (r : State × List Nat) : Prop where
  changes : Changes [.lc, .cd, .art] s r.1
  offers : Offers a 1 s r.1
  pins : ∀ n, (r.1.article n).pins = (s.article n).pins
  quiet : (s.copyWanted a p.number → (s.copyMap a).length < 32) →
    r.2 = [] ∧ r.1.cd.changes = s.cd.changes
      ∧ ∀ n, n ≠ p.number ∨ s.changeOf n ≠ none → r.1.article n = s.article n

section
variable {s : State} {a : Nat} {p : Snapshot}

theorem State.CopyStep.none (s : State) (a : Nat) (p : Snapshot) : s.CopyStep a p (s, []) :=
  ⟨Changes.refl _ s, (Offers.refl a s).mono (by omega), fun _ => rfl, fun _ => ⟨rfl, rfl, fun _ _ => rfl⟩⟩

theorem State.filled_step (h : s.changeOf p.number = none) : s.CopyStep a p (s.filled a p, []) := by
  have hroom : ordinary (append (s.station a).queue (.fill p)) ≤ ordinary (s.station a).queue + 1 :=
    (ordinary_append _ _).le
  have hoffers := Offers.setQueue s a 1 _ (s.station a).backlog (s.station a).showOwed hroom
  have harticle : ∀ n, (s.filled a p).article n = if n = p.number then
      { s.article p.number with holders := setInsert a (s.article p.number).holders } else s.article n := fun n => by
    unfold State.filled
    dsimp only
    rw [State.article_setArticle]
    rfl
  refine ⟨State.setArticle_changes _ _ (State.setCopyMap_changes _ _
    (State.setStation_changes a _ (Changes.refl _ s) rfl) rfl) rfl, hoffers.then_lc rfl, fun n => ?_,
    fun _ => ⟨rfl, rfl, fun n hn => ?_⟩⟩
  · rw [harticle]
    split
    · rename_i hn
      rw [hn]
    · rfl
  · rw [harticle, if_neg (fun hn' => ?_)]
    rcases hn with hn | hn
    · exact hn hn'
    · exact hn (hn' ▸ h)

theorem State.updateCopy_step (hs : s.inService a = true) (hn : (s.station a).state = .normal)
    (hf : 3 ≤ free (s.station a).queue) : s.CopyStep a p (s.updateCopy a p) := by
  cases hcopy : copyOf (s.copyMap a) p.number with
  | some e =>
    rw [State.updateCopy_held hcopy]
    have hoffers : Offers a 0 s (s.setCopyMap a (e :: withoutCopy (s.copyMap a) p.number)) := .of_lc rfl
    exact ⟨State.setCopyMap_changes a _ (Changes.refl _ s) rfl, hoffers.mono (by omega), fun _ => rfl,
      fun _ => ⟨rfl, rfl, fun _ _ => rfl⟩⟩
  | none =>
    by_cases hwait : s.changeOf p.number ≠ none ∨ (s.station a).backlog = .all
    · rw [State.updateCopy_waits hcopy hwait]
      exact .none s a p
    · rw [not_or, not_not] at hwait
      have hwanted : s.copyWanted a p.number := ⟨hn, hcopy, hwait⟩
      by_cases hl : (s.copyMap a).length < 32
      · rw [State.updateCopy_fills hwanted hl hf]
        exact State.filled_step hwait.1
      · cases hk : lastValid (s.copyMap a) with
        | none =>
          rw [State.updateCopy_noneValid hwanted (not_lt.mp hl) hk]
          exact .none s a p
        | some k =>
          rw [State.updateCopy_evicts hwanted (not_lt.mp hl) hk]
          have he := State.offerPurge_evicted hs k (by omega)
          exact ⟨he.changes, he.offers, he.pins, fun h => absurd (h hwanted) hl⟩

end

/-- The state after step 3 of R95, and the articles that lost the scale as a holder. -/
def State.copied (s : State) (a : Nat) (p : Snapshot) : State × List Nat :=
  if ((s.repinned a p).station a).state = .normal then (s.repinned a p).updateCopy a p else (s.repinned a p, [])

theorem State.copied_step {s : State} {a : Nat} (p : Snapshot) (hs : s.inService a = true)
    (hf : 3 ≤ free (s.station a).queue) : (s.repinned a p).CopyStep a p (s.copied a p) := by
  unfold State.copied
  split
  · rename_i hn
    refine State.updateCopy_step ?_ hn ?_
    · rwa [State.inService_of_lc (s.repinned_lc a p)]
    · rwa [State.station_of_lc (s.repinned_lc a p)]
  · exact .none _ a p

/-! ## A SELECT that proceeds (R95) -/

/-- The evaluation and the REPLY OK of a SELECT, before the settle check of the earlier pin (R95). -/
def State.selected (s : State) (a : Nat) (p : Snapshot) : State :=
  ((s.copied a p).1.evaluate a).reply a 1 .ok (chars 2 p.number ++ chars 1 p.revision)

theorem State.carrySelect_eq (s : State) (a : Nat) (p : Snapshot) :
    s.carrySelect a p = (s.selected a p).finish (s.unpinTouches a ++ (s.copied a p).2) := rfl

section
variable {s : State} {a : Nat} (p : Snapshot)

theorem State.selected_changes (s : State) (a : Nat) (p : Snapshot) :
    Changes [.we, .lc] (s.copied a p).1 (s.selected a p) :=
  State.reply_changes a 1 .ok _ (State.evaluate_changes a (Changes.refl _ _) rfl) rfl

theorem State.selected_noNewFill (s : State) (a : Nat) (p : Snapshot) :
    (s.copied a p).1.NoNewFill (s.selected a p) a :=
  (State.evaluate_noNewFill _ a).trans (State.reply_noNewFill _ a 1 .ok _)

theorem State.selected_mem {e : Entry} (he : e ∈ ((s.copied a p).1.station a).queue) (hv : isVerdict e.msg = false) :
    e ∈ ((s.selected a p).station a).queue :=
  State.reply_mem (State.evaluate_mem he hv)

variable (hs : s.inService a = true) (hf : 3 ≤ free (s.station a).queue)
include hs hf

theorem State.evaluated_offers : Offers a 2 s ((s.copied a p).1.evaluate a) :=
  ((Offers.of_lc (s.repinned_lc a p)).trans (State.copied_step p hs hf).offers).trans (State.evaluate_offers _ a)

theorem State.selected_offers : Offers a 3 s (s.selected a p) :=
  (State.evaluated_offers p hs hf).trans (State.reply_offers _ a 1 .ok _)

theorem State.selected_answered :
    (s.selected a p).answered a 1 .ok (chars 2 p.number ++ chars 1 p.revision) :=
  (State.evaluated_offers p hs hf).answered hs (by unfold free at hf; omega)

theorem State.selected_channel (b : Nat) : (s.selected a p).channel b =
    if b = a then judged (pinnedWith (beforePin (s.channel a)) p) (s.verdictOf a (pinnedWith (beforePin (s.channel a)) p))
    else s.channel b := by
  have hstep := State.copied_step p hs hf
  have hcopied : ∀ c, (s.copied a p).1.channel c =
      if c = a then pinnedWith (beforePin (s.channel a)) p else s.channel c := fun c => by
    rw [State.channel_of_we (hstep.changes.same .we rfl), State.repinned_channel]
  have hverdict : (s.copied a p).1.verdictOf a = s.verdictOf a :=
    State.verdictOf_congr ((hstep.changes.same .op rfl).trans (s.repinned_op a p))
      (hstep.offers.state_eq.trans (by rw [State.station_of_lc (s.repinned_lc a p)]))
  have hreply : (s.selected a p).we = ((s.copied a p).1.evaluate a).we :=
    (State.reply_changes (m := [.lc]) a 1 .ok _ (Changes.refl _ _) rfl).same .we rfl
  rw [State.channel_of_we hreply]
  split
  · rename_i hb
    rw [hb, State.evaluate_channel, hcopied, if_pos rfl, hverdict]
  · rename_i hb
    rw [State.evaluate_channel_ne _ hb, hcopied, if_neg hb]

theorem State.selected_pin : ((s.selected a p).channel a).ctx.pin = some p := by
  rw [State.selected_channel p hs hf, if_pos rfl, judged_ctx]
  rfl

theorem State.selected_pins : a ∈ ((s.selected a p).article p.number).pins := by
  rw [State.article_of_art ((s.selected_changes a p).same .art rfl), (State.copied_step p hs hf).pins,
    State.repinned_article, if_pos rfl]
  exact (mem_setInsert _ _ _).mpr (.inl rfl)

end

/-! ## The release of the earlier pin (R95, R97, R100, R101) -/

theorem State.repinned_copyWanted (s : State) (a n : Nat) (p : Snapshot) :
    (s.repinned a p).copyWanted a n ↔ s.copyWanted a n := by
  unfold State.copyWanted
  rw [State.station_of_lc (s.repinned_lc a p), State.copyMap_of_cd (s.repinned_cd a p),
    State.changeOf_of_cd (s.repinned_cd a p)]

theorem State.repinned_article_released {s : State} {a : Nat} {p e : Snapshot} (he : (s.channel a).ctx.pin = some e)
    (h : e.number ≠ p.number) : (s.repinned a p).article e.number = (s.article e.number).withoutPin a := by
  rw [State.repinned_article, if_neg h, State.unpin_article, if_pos (by simp [State.pinned, he])]
  rfl

theorem State.repinned_article_same {s : State} {a : Nat} {p e : Snapshot} (he : (s.channel a).ctx.pin = some e)
    (h : e.number = p.number) : (s.repinned a p).article e.number =
      { s.article e.number with pins := setInsert a ((s.article e.number).withoutPin a).pins } := by
  rw [State.repinned_article, if_pos h, State.unpin_article, if_pos (by simp [State.pinned, he])]
  rfl

/-- A new pin of scale a moves no other scale into or out of a pin set. -/
theorem State.repinned_pins_ne (s : State) {a b : Nat} (p : Snapshot) (n : Nat) (h : b ≠ a) :
    b ∈ ((s.repinned a p).article n).pins ↔ b ∈ (s.article n).pins := by
  have hunpin : b ∈ ((s.unpin a).article n).pins ↔ b ∈ (s.article n).pins := by
    rw [State.unpin_article]
    split
    · simp [setErase, h]
    · rfl
  rw [State.repinned_article]
  split
  · rw [mem_setInsert, hunpin]
    simp [h]
  · exact hunpin

/-- The earlier pin ends with the settle check of its article, where no article is evicted in the same SELECT: it is a pin
of another article, or the article's change in flight is from another revision than the new pin's. -/
theorem State.carrySelect_pinEnded {s : State} {a : Nat} {p e : Snapshot} (hs : s.inService a = true)
    (hf : 3 ≤ free (s.station a).queue) (he : (s.channel a).ctx.pin = some e)
    (hfit : s.copyWanted a p.number → (s.copyMap a).length < 32)
    (hold : e.number ≠ p.number ∨ ∃ d, s.changeOf e.number = some d ∧ d.oldRevision ≠ p.revision) :
    s.PinEnded (s.carrySelect a p) (s.carrySelect a p).op a e.number ((s.repinned a p).article e.number) := by
  have hstep := State.copied_step p hs hf
  have hselected := s.selected_changes a p
  obtain ⟨hlost, hchanges, harticles⟩ := hstep.quiet (by
    rw [State.repinned_copyWanted, State.copyMap_of_cd (s.repinned_cd a p)]
    exact hfit)
  have harticle := harticles e.number (hold.imp_right (fun ⟨d, hd, _⟩ => by
    rw [State.changeOf_of_cd (s.repinned_cd a p), hd]
    simp))
  have htouched : s.unpinTouches a ++ (s.copied a p).2 = [e.number] := by
    simp [State.unpinTouches, State.pinned, he, hlost]
  rw [State.carrySelect_eq, htouched]
  refine State.finish_pinEnded ?_ ?_ ?_ (fun b hb => s.repinned_pins_ne p e.number hb) (fun b hb => ?_) (fun c hc hmem => ?_)
  · rw [State.article_of_art (hselected.same .art rfl), harticle]
  · rw [hselected.same .cd rfl, hchanges, s.repinned_cd a p]
  · rw [hselected.same .op rfl, hstep.changes.same .op rfl, s.repinned_op a p]
  · rw [State.selected_channel p hs hf, if_neg hb]
  · obtain ⟨-, q, hpin, hnumber, hrevision⟩ := State.mem_oldPins.mp hmem
    obtain rfl : p = q := Option.some.inj ((State.selected_pin p hs hf).symm.trans hpin)
    rw [State.changeOf_number hc] at hnumber
    rcases hold with hne | ⟨d, hd, hne⟩
    · exact hne hnumber.symm
    · obtain rfl : d = c := Option.some.inj (hd.symm.trans hc)
      exact hne hrevision.symm

/-! ## The copy map after a SELECT (R87 to R90, R95) -/

section
variable {s : State} {a : Nat} {p : Snapshot}

theorem State.carrySelect_copyMap (s : State) (a : Nat) (p : Snapshot) :
    (s.carrySelect a p).copyMap a = (s.copied a p).1.copyMap a := by
  rw [State.carrySelect_eq, State.finish_copyMap, State.copyMap_of_cd ((s.selected_changes a p).same .cd rfl)]

theorem State.carrySelect_holders (s : State) (a : Nat) (p : Snapshot) (n : Nat) :
    ((s.carrySelect a p).article n).holders = ((s.copied a p).1.article n).holders := by
  rw [State.carrySelect_eq, State.finish_holders, State.article_of_art ((s.selected_changes a p).same .art rfl)]

theorem State.carrySelect_lc (s : State) (a : Nat) (p : Snapshot) : (s.carrySelect a p).lc = (s.selected a p).lc :=
  State.finish_lc _ _

theorem State.carrySelect_mem {e : Entry} (he : e ∈ ((s.copied a p).1.station a).queue) (hv : isVerdict e.msg = false) :
    e ∈ ((s.carrySelect a p).station a).queue := by
  rw [State.station_of_lc (s.carrySelect_lc a p)]
  exact State.selected_mem p he hv

theorem State.copied_normal (h : (s.station a).state = .normal) : s.copied a p = (s.repinned a p).updateCopy a p :=
  if_pos (by rwa [State.station_of_lc (s.repinned_lc a p)])

theorem State.copied_elsewhere (h : (s.station a).state ≠ .normal) : s.copied a p = (s.repinned a p, []) :=
  if_neg (by rwa [State.station_of_lc (s.repinned_lc a p)])

/-- Out of NORMAL, while a change is in flight or "all" waits in the backlog, the copy map stays (R87, R95). -/
theorem State.select_keepsCopies (h : (s.station a).state ≠ .normal ∨ copyOf (s.copyMap a) p.number = none
    ∧ (s.changeOf p.number ≠ none ∨ (s.station a).backlog = .all)) : (s.carrySelect a p).copyMap a = s.copyMap a := by
  have hcopied : s.copied a p = (s.repinned a p, []) := by
    by_cases hn : (s.station a).state = .normal
    · obtain ⟨hnone, hwait⟩ := h.resolve_left (not_not.mpr hn)
      rw [State.copied_normal hn, State.updateCopy_waits]
      · rwa [State.copyMap_of_cd (s.repinned_cd a p)]
      · rwa [State.changeOf_of_cd (s.repinned_cd a p), State.station_of_lc (s.repinned_lc a p)]
    · exact State.copied_elsewhere hn
  rw [State.carrySelect_copyMap, hcopied, State.copyMap_of_cd (s.repinned_cd a p)]

/-- An entry that is there moves to the front (R87). -/
theorem State.select_movesCopy {e : CopyEntry} (hn : (s.station a).state = .normal)
    (h : copyOf (s.copyMap a) p.number = some e) :
    (s.carrySelect a p).copyMap a = e :: withoutCopy (s.copyMap a) p.number := by
  rw [State.carrySelect_copyMap, State.copied_normal hn,
    State.updateCopy_held (by rwa [State.copyMap_of_cd (s.repinned_cd a p)]), State.copyMap_setCopyMap, if_pos rfl,
    State.copyMap_of_cd (s.repinned_cd a p)]

/-- A first entry with its FILL (R87, R95). -/
theorem State.select_fills (h : s.copyWanted a p.number) (hl : (s.copyMap a).length < 32)
    (hf : 3 ≤ free (s.station a).queue) :
    (s.carrySelect a p).copyMap a = { article := p.number, revision := p.revision, purging := false } :: s.copyMap a
    ∧ a ∈ ((s.carrySelect a p).article p.number).holders
    ∧ { msg := .fill p, sent := false } ∈ ((s.carrySelect a p).station a).queue := by
  have hcopied : (s.copied a p).1 = (s.repinned a p).filled a p := by
    rw [State.copied_normal h.1, State.updateCopy_fills ((s.repinned_copyWanted a _ p).mpr h)]
    · rwa [State.copyMap_of_cd (s.repinned_cd a p)]
    · rwa [State.station_of_lc (s.repinned_lc a p)]
  refine ⟨?_, ?_, State.carrySelect_mem ?_ rfl⟩
  · rw [State.carrySelect_copyMap, hcopied, ← State.copyMap_of_cd (s.repinned_cd a p)]
    exact (State.copyMap_setCopyMap _ _ _ _).trans (if_pos rfl)
  · rw [State.carrySelect_holders, hcopied]
    unfold State.filled
    dsimp only
    rw [State.article_setArticle, if_pos rfl]
    exact (mem_setInsert _ _ _).mpr (.inl rfl)
  · rw [hcopied]
    show _ ∈ (State.station (State.setStation _ a _) a).queue
    rw [State.station_setStation, if_pos rfl]
    simp [append]

/-- No FILL comes with an eviction (R88, R95). -/
theorem State.select_noNewFill (h : s.copyWanted a p.number) (hl : 32 ≤ (s.copyMap a).length) (hs : s.inService a = true)
    (hf : 3 ≤ free (s.station a).queue) : s.NoNewFill (s.carrySelect a p) a := by
  have hwanted := (s.repinned_copyWanted a _ p).mpr h
  rw [← State.copyMap_of_cd (s.repinned_cd a p)] at hl
  rw [← State.inService_of_lc (s.repinned_lc a p)] at hs
  rw [← State.station_of_lc (s.repinned_lc a p)] at hf
  have hcopied : (s.repinned a p).NoNewFill (s.copied a p).1 a := by
    rw [State.copied_normal h.1]
    cases hk : lastValid ((s.repinned a p).copyMap a) with
    | none =>
      rw [State.updateCopy_noneValid hwanted hl hk]
      exact .of_lc rfl a
    | some k =>
      rw [State.updateCopy_evicts hwanted hl hk]
      exact (State.offerPurge_evicted hs k (by omega)).noFill
  exact ((State.NoNewFill.of_lc (s.repinned_lc a p) a).trans hcopied).trans
    ((s.selected_noNewFill a p).trans (.of_lc (s.carrySelect_lc a p) a))

/-- A full map without a VALID entry stays (R88). -/
theorem State.select_noneValid (h : s.copyWanted a p.number) (hl : 32 ≤ (s.copyMap a).length)
    (hm : ∀ e ∈ s.copyMap a, e.purging = true) : (s.carrySelect a p).copyMap a = s.copyMap a := by
  have hmap := State.copyMap_of_cd (s.repinned_cd a p) a
  rw [State.carrySelect_copyMap, State.copied_normal h.1, State.updateCopy_noneValid
    ((s.repinned_copyWanted a _ p).mpr h) (by rwa [hmap]) (by rw [hmap]; exact lastValid_none hm), hmap]

/-- The eviction of the last VALID entry of a full map (R88, R90). -/
theorem State.select_evicts (h : s.copyWanted a p.number) (hl : 32 ≤ (s.copyMap a).length) (hs : s.inService a = true)
    (hf : 3 ≤ free (s.station a).queue) {l r : List CopyEntry} {e : CopyEntry} (hm : s.copyMap a = l ++ e :: r)
    (he : e.purging = false) (hr : ∀ y ∈ r, y.purging = true) :
    let fill := (s.station a).queue.any (unsent (isFillOf e.article))
    let t := s.carrySelect a p
    (fill = false →
      t.copyMap a = (s.copyMap a).map (fun y => if y.article = e.article then { y with purging := true } else y)
      ∧ { msg := .purge e.article, sent := false } ∈ (t.station a).queue)
    ∧ (fill = true → t.copyMap a = withoutCopy (s.copyMap a) e.article ∧ a ∉ (t.article e.article).holders) := by
  have hmap := State.copyMap_of_cd (s.repinned_cd a p) a
  have hstation := State.station_of_lc (s.repinned_lc a p) a
  have hcopied : s.copied a p = (s.repinned a p).offerPurge a e.article := by
    rw [State.copied_normal h.1, State.updateCopy_evicts ((s.repinned_copyWanted a _ p).mpr h) (by rwa [hmap])]
    rw [hmap, hm]
    exact lastValid_at he hr
  have hevicted : (s.repinned a p).Evicted (s.copied a p).1 a e.article := by
    rw [hcopied]
    refine State.offerPurge_evicted ?_ e.article (by rw [hstation]; omega)
    rwa [State.inService_of_lc (s.repinned_lc a p)]
  have hpurged := hevicted.purged
  have hwithdrawn := hevicted.withdrawn
  rw [hmap, hstation] at hpurged hwithdrawn
  refine ⟨fun hq => ?_, fun hq => ?_⟩
  · obtain ⟨hcopies, hmem⟩ := hpurged hq
    exact ⟨(s.carrySelect_copyMap a p).trans hcopies, State.carrySelect_mem hmem rfl⟩
  · obtain ⟨hcopies, hholder⟩ := hwithdrawn hq
    exact ⟨(s.carrySelect_copyMap a p).trans hcopies, by rwa [State.carrySelect_holders]⟩

end

/-! ## The checks of SELECT (R43, R94) -/

section
variable {s : State} {a n c : Nat}

theorem State.exec_select (h : s.takes a) (n : Nat) : exec (.select a n) s = .next ((s.markTaken a).takeSelect a n) :=
  congrArg _ (State.deliverAction_takes h _)

theorem State.takeSelect_noClerk (h : s.clerkAt a = none) (n : Nat) : s.takeSelect a n = s.reply a 1 .noClerk [] := by
  unfold State.takeSelect
  rw [h]

theorem selectable_none {r : Article} (h : r.state = .empty ∨ r.state = .retiring) : selectable r = none := by
  unfold selectable
  rcases h with h | h <;> rw [h]

theorem selectable_content {r : Article} (h : r.state = .live ∨ r.state = .changing) : selectable r = r.content := by
  unfold selectable
  rcases h with h | h <;> rw [h]

theorem State.takeSelect_noArticle (hc : s.clerkAt a = some c)
    (h : n < 1 ∨ 2048 < n ∨ (s.article n).state = .empty ∨ (s.article n).state = .retiring) :
    s.takeSelect a n = s.reply a 1 .noArticle [] := by
  unfold State.takeSelect
  rw [hc]
  dsimp only
  split
  · rfl
  · rename_i hn
    rw [selectable_none ((or_assoc.mpr h).resolve_left hn)]

/-- A SELECT of an article that can be taken, by the check of its preset tare (R43). -/
theorem State.takeSelect_article {x : Content} (hc : s.clerkAt a = some c) (h1 : 1 ≤ n) (h2 : n ≤ 2048)
    (h : (s.article n).state = .live ∨ (s.article n).state = .changing) (hx : (s.article n).content = some x) :
    s.takeSelect a n =
      if presetRefused (s.channel a) x.tare = true then s.reply a 1 .tareRange []
      else s.carrySelect a { number := n, revision := (s.article n).revision, content := x } := by
  unfold State.takeSelect
  simp only [hc, selectable_content h, hx]
  exact if_neg (by omega)

end

/-- The check of R43: only a tare keyed or weighed at the scale passes over a preset tare above the limit. -/
theorem presetRefused_iff (ch : Channel) (g : Nat) : presetRefused ch g = true ↔
    ch.config.tareLimit < g ∧ ∀ k, ch.tare ≠ .weighed k ∧ ch.tare ≠ .keyed k := by
  unfold presetRefused
  cases ch.tare <;> simp

/-! ## SELECT as the message of its scale (R14, R95) -/

theorem State.markTaken_copyWanted (s : State) (a n : Nat) : (s.markTaken a).copyWanted a n ↔ s.copyWanted a n := by
  unfold State.copyWanted
  rw [State.markTaken_station, if_pos rfl]
  rfl

section
variable {s : State} {a n c : Nat} (h : s.takes a)
include h

/-- The refusals that come before the check of the preset tare (R94). -/
theorem State.select_refused : (s.clerkAt a = none → s.turnsAway (.select a n) a 1 .noClerk)
    ∧ (∀ c, s.clerkAt a = some c →
        (n < 1 ∨ 2048 < n ∨ (s.article n).state = .empty ∨ (s.article n).state = .retiring) →
        s.turnsAway (.select a n) a 1 .noArticle) := by
  refine ⟨fun hc => ?_, fun c hc hn => ?_⟩
  · exact (State.exec_select h n).trans (congrArg _ (State.takeSelect_noClerk (s := s.markTaken a) hc n))
  · exact (State.exec_select h n).trans (congrArg _ (State.takeSelect_noArticle (s := s.markTaken a) hc hn))

theorem State.exec_select_article {x : Content} (hc : s.clerkAt a = some c) (h1 : 1 ≤ n) (h2 : n ≤ 2048)
    (hn : (s.article n).state = .live ∨ (s.article n).state = .changing) (hx : (s.article n).content = some x) :
    exec (.select a n) s = .next
      (if presetRefused (s.channel a) x.tare = true then (s.markTaken a).reply a 1 .tareRange []
        else (s.markTaken a).carrySelect a { number := n, revision := (s.article n).revision, content := x }) :=
  (State.exec_select h n).trans (congrArg _ (State.takeSelect_article (s := s.markTaken a) hc h1 h2 hn hx))

theorem State.takes_free : 3 ≤ free ((s.markTaken a).station a).queue := by
  obtain ⟨-, hroom⟩ := State.takes_room h
  unfold free
  omega

/-- The REPLY, the Line Controller and the pin of a SELECT that proceeds. -/
theorem State.select_pins (p : Snapshot) :
    let t := (s.markTaken a).carrySelect a p
    let ch := pinnedWith (beforePin (s.channel a)) p
    t.answered a 1 .ok (chars 2 p.number ++ chars 1 p.revision) ∧ s.took t a
    ∧ t.channel a = judged ch (s.verdictOf a ch) ∧ ChannelOnly a s t ∧ (t.channel a).ctx.pin = some p
    ∧ a ∈ (t.article p.number).pins := by
  intro t ch
  obtain ⟨hs, -⟩ := State.takes_room h
  have hf := State.takes_free h
  have hlc := (s.markTaken a).carrySelect_lc a p
  have hchannel : ∀ b, t.channel b = ((s.markTaken a).selected a p).channel b :=
    State.channel_of_we (State.finish_we _ _)
  have hselected := State.selected_channel p hs hf
  rw [State.markTaken_verdictOf] at hselected
  refine ⟨State.answered_of_lc hlc (State.selected_answered p hs hf),
    State.took_of_offers ((State.selected_offers p hs hf).then_lc hlc), ?_, fun b hb => ?_, ?_, ?_⟩
  · rw [hchannel, hselected, if_pos rfl]
    rfl
  · rw [hchannel, hselected, if_neg hb, State.markTaken_channel]
  · rw [hchannel]
    exact State.selected_pin p hs hf
  · show a ∈ (((State.selected _ a p).finish _).article p.number).pins
    rw [State.finish_pins]
    exact State.selected_pins p hs hf

/-- The earlier pin's end, in the terms of the state before the message. -/
theorem State.select_pinEnded {p e : Snapshot} (he : (s.channel a).ctx.pin = some e)
    (hfit : s.copyWanted a p.number → (s.copyMap a).length < 32)
    (hold : e.number ≠ p.number ∨ ∃ d, s.changeOf e.number = some d ∧ d.oldRevision ≠ p.revision) :
    let t := (s.markTaken a).carrySelect a p
    s.PinEnded t t.op a e.number (((s.markTaken a).repinned a p).article e.number) := by
  obtain ⟨hs, -⟩ := State.takes_room h
  exact (State.carrySelect_pinEnded (s := s.markTaken a) hs (State.takes_free h) he
    (fun hw => hfit ((s.markTaken_copyWanted a _).mp hw)) hold).congr rfl rfl (fun _ _ => rfl) rfl rfl

end

/-- Settles O45. -/
theorem selectPins : Obligations.SelectPins := by
  intro s a n h
  obtain ⟨hnoClerk, hnoArticle⟩ := State.select_refused (n := n) h
  refine ⟨hnoClerk, hnoArticle, fun c x hc h1 h2 hstate hx => ?_⟩
  intro ch old p
  have hexec := State.exec_select_article h hc h1 h2 hstate hx
  refine ⟨fun ht hk => ?_, fun ht => ?_⟩
  · rwa [if_pos ((presetRefused_iff ch x.tare).mpr ⟨ht, hk⟩)] at hexec
  have hpreset : ¬ presetRefused ch x.tare = true := fun hr => by
    obtain ⟨hlimit, hkind⟩ := (presetRefused_iff ch x.tare).mp hr
    rcases ht with ht | ⟨g, hg | hg⟩
    · omega
    · exact (hkind g).1 hg
    · exact (hkind g).2 hg
  rw [if_neg hpreset] at hexec
  obtain ⟨hs, -⟩ := State.takes_room h
  have hf := State.takes_free h
  obtain ⟨hanswered, htook, hchannel, honly, hpin, hpins⟩ := State.select_pins h p
  have hst : (s.markTaken a).station a = { s.station a with lastU := !(s.station a).lastU } :=
    (s.markTaken_station a a).trans (if_pos rfl)
  have hwanted : ∀ {m}, s.copyWanted a m → (s.markTaken a).copyWanted a m := (s.markTaken_copyWanted a _).mpr
  refine ⟨_, hexec, hanswered, htook, hchannel, honly, hpin, hpins, fun e he hne hfit => ?_, fun e d he heq hd hrev => ?_,
    fun hm => ?_, fun hm hcopy hchange hall hl => ?_, fun e hm hcopy => ?_, fun hm hcopy hwait => ?_,
    fun hm hcopy hchange hall hl => ⟨?_, fun hpurging => ?_, fun l e r hcopies he hr => ?_⟩⟩
  · have hend := State.select_pinEnded h (p := p) he (fun ⟨hm, hcopy, hchange, hall⟩ => hfit hm hcopy hchange hall)
      (.inl hne)
    rwa [State.repinned_article_released (s := s.markTaken a) he hne] at hend
  · have hend := State.select_pinEnded h (p := p) he (fun ⟨_, _, hchange, _⟩ => by cases hd.symm.trans hchange)
      (.inr ⟨d, by rw [heq]; exact hd, hrev⟩)
    rwa [State.repinned_article_same (s := s.markTaken a) he heq, heq] at hend
  · exact State.select_keepsCopies (s := s.markTaken a) (.inl (by rwa [hst]))
  · exact State.select_fills (s := s.markTaken a) (p := p) (hwanted ⟨hm, hcopy, hchange, hall⟩) hl hf
  · exact State.select_movesCopy (s := s.markTaken a) (p := p) (by rwa [hst]) hcopy
  · exact State.select_keepsCopies (s := s.markTaken a) (p := p) (.inr ⟨hcopy, by rw [hst]; exact hwait⟩)
  · have hfills := State.select_noNewFill (s := s.markTaken a) (p := p) (hwanted ⟨hm, hcopy, hchange, hall⟩) hl hs hf
    unfold State.NoNewFill at hfills
    rwa [hst] at hfills
  · exact State.select_noneValid (s := s.markTaken a) (p := p) (hwanted ⟨hm, hcopy, hchange, hall⟩) hl hpurging
  · have hevicts := State.select_evicts (s := s.markTaken a) (p := p) (hwanted ⟨hm, hcopy, hchange, hall⟩) hl hs hf
      hcopies he hr
    rwa [hst] at hevicts

end Sys2Proof.Machine
end

section
/-! ART.CREATE, and the bodies of ART.CREATE and ART.CHANGE: which are laid out, which are in range, and the content that
they give (R69, R70). -/

namespace Sys2Proof.Machine

/-! ## The content of a body (R69) -/

theorem saleOf_some_iff {m : Nat} {x : SaleMode} : saleOf m = some x ↔ saleCode x = m := by
  constructor
  · intro h
    unfold saleOf at h
    split at h <;> cases h <;> rfl
  · rintro rfl
    cases x <;> rfl

theorem saleCode_onto {m : Nat} (h1 : 1 ≤ m) (h2 : m ≤ 3) : ∃ x, saleCode x = m := by
  interval_cases m
  · exact ⟨.byWeight, rfl⟩
  · exact ⟨.byCount, rfl⟩
  · exact ⟨.fixed, rfl⟩

theorem saleCode_range (x : SaleMode) : 1 ≤ saleCode x ∧ saleCode x ≤ 3 := by
  cases x <;> decide

section
variable {body : List Byte}

theorem contentForm_of_laidOut (h : contentLaidOut body) : contentForm body = true := by
  obtain ⟨hmin, hlength, h1, h2⟩ := h
  simp [contentForm, hmin, ← hlength, articleNumber_of_range h1 h2]

/-- The name's characters are the body's from the eleventh on, so the bounds of its length are bounds of the body's. -/
theorem nameSound_iff : 1 ≤ (body.drop 10).length ∧ (body.drop 10).length ≤ 24
      ∧ ((body.drop 10).all (fun c => 32 ≤ c.toNat && c.toNat ≤ 126)) = true ↔
    (11 ≤ body.length ∧ body.length ≤ 34) ∧ ∀ c ∈ body.drop 10, 32 ≤ c.toNat ∧ c.toNat ≤ 126 := by
  simp only [List.all_eq_true, Bool.and_eq_true, decide_eq_true_eq, List.length_drop]
  exact ⟨fun ⟨h1, h24, hchars⟩ => ⟨⟨by omega, by omega⟩, hchars⟩,
    fun ⟨⟨h11, h34⟩, hchars⟩ => ⟨by omega, by omega, hchars⟩⟩

theorem contentOf_inRange (h : contentInRange body) : ∃ c, contentOf body = some c ∧ c.isOf body := by
  obtain ⟨⟨h1, h3⟩, ⟨hlow, hhigh⟩, htare, hname⟩ := h
  obtain ⟨mode, hmode⟩ := saleCode_onto h1 h3
  refine ⟨{ name := body.drop 10, mode := mode, price := field body 4 3, markdown := min (field body 7 1) 90,
            tare := field body 8 2 }, ?_, rfl, hmode, rfl, Nat.min_comm _ _, rfl⟩
  unfold contentOf
  rw [saleOf_some_iff.mpr hmode]
  exact if_pos ⟨hlow, hhigh, htare, nameSound_iff.mpr hname⟩

theorem contentOf_outOfRange (h : ¬ contentInRange body) : contentOf body = none := by
  unfold contentOf
  split
  · rfl
  · rename_i mode hmode
    refine if_neg (fun ⟨hlow, hhigh, htare, hname⟩ => h ?_)
    have hrange := saleCode_range mode
    rw [saleOf_some_iff.mp hmode] at hrange
    exact ⟨hrange, ⟨hlow, hhigh⟩, htare, nameSound_iff.mp hname⟩

end

/-! ## ART.CREATE (R70) -/

theorem State.exec_artCreate {s u : State} {body : List Byte} {r : Answer} (hr : s.op.resetLow = false)
    (hl : body.length ≤ 255) (h : s.artCreate body = (u, r)) :
    exec (.artCreate body) s = .next (u.responded 16 r.result r.clamped r.body (3 + body.length)) :=
  congrArg _ (State.transact_responds hr hl h)

/-- ART.CREATE with a body of its layout: three checks in order, then the record (R70). -/
theorem State.artCreate_eq (s : State) {body : List Byte} (h : contentLaidOut body) : s.artCreate body =
    let n := field body 1 2
    if (s.article n).state ≠ .empty then (s, .refuse .inUse)
    else if Tbl.read ArticleRow.clear s.liveBank.articles n ≠ ArticleRow.clear then (s, .refuse .totalsPending)
    else (contentOf body).elim (s, .refuse .badArg) (fun c =>
      (s.setArticle n { s.article n with state := .live, content := some c, revision := 1 },
        .clamp (contentClamped body))) := by
  unfold State.artCreate
  rw [contentForm_of_laidOut h]
  cases contentOf body <;> rfl

/-- Settles O26. -/
theorem artCreateStores : Obligations.ArtCreateStores := by
  intro s body hr hl h n row
  have hrun := s.artCreate_eq h
  refine ⟨fun hstate => ?_, fun hstate hrow => ?_, fun hstate hrow hrange => ?_, fun hstate hrow hrange => ?_⟩
  · rw [if_pos hstate] at hrun
    exact State.exec_artCreate hr hl hrun
  · rw [if_neg (not_not.mpr hstate), if_pos hrow] at hrun
    exact State.exec_artCreate hr hl hrun
  · rw [if_neg (not_not.mpr hstate), if_neg (not_not.mpr hrow), contentOf_outOfRange hrange] at hrun
    exact State.exec_artCreate hr hl hrun
  · obtain ⟨c, hc, hof⟩ := contentOf_inRange hrange
    rw [if_neg (not_not.mpr hstate), if_neg (not_not.mpr hrow), hc] at hrun
    exact ⟨c, hof, State.exec_artCreate hr hl hrun⟩

end Sys2Proof.Machine
end

section
/-! The end of an event for one of the articles it touched: the settle check and the check of R78, whatever other
articles the same event touched (R75, R78, R100, R101). -/

namespace Sys2Proof.Machine

theorem rising_pairwise (l : List Nat) : (rising l).Pairwise (· < ·) := by
  have hinsert : ∀ (x : Nat) (m : List Nat), m.Pairwise (· < ·) → (setInsert x m).Pairwise (· < ·) := by
    intro x m hm
    induction m with
    | nil => simp [setInsert]
    | cons y rest ih =>
      obtain ⟨hy, hrest⟩ := List.pairwise_cons.mp hm
      unfold setInsert
      split
      · rename_i hxy
        refine List.pairwise_cons.mpr ⟨fun z hz => ?_, hm⟩
        rcases List.mem_cons.mp hz with rfl | hz
        · exact hxy
        · exact hxy.trans (hy z hz)
      · split
        · exact hm
        · refine List.pairwise_cons.mpr ⟨fun z hz => ?_, ih hrest⟩
          rcases (mem_setInsert x z rest).mp hz with rfl | hz
          · omega
          · exact hy z hz
  induction l with
  | nil => exact List.Pairwise.nil
  | cons x rest ih => exact hinsert x _ ih

/-! ## What the checks of other articles leave -/

/-- Article n, its change in flight and every channel are as before, and the notices raised are of settled changes. -/
structure State.KeptArticle (s t : State) (n : Nat) : Prop where
  change : t.changeOf n = s.changeOf n
  article : t.article n = s.article n
  we : t.we = s.we
  noted : Noted [.changeSettled] s t

theorem State.oldPins_congr {s t : State} {c : Change} (hp : (t.article c.article).pins = (s.article c.article).pins)
    (hw : t.we = s.we) : t.oldPins c = s.oldPins c := by
  unfold State.oldPins
  simp only [hp, State.channel_of_we hw]

section
variable {s t u : State} {n : Nat}

theorem State.KeptArticle.refl (s : State) (n : Nat) : s.KeptArticle s n := ⟨rfl, rfl, rfl, .of_op rfl⟩

theorem State.KeptArticle.trans (h : s.KeptArticle t n) (g : t.KeptArticle u n) : s.KeptArticle u n :=
  ⟨g.change.trans h.change, g.article.trans h.article, g.we.trans h.we, h.noted.trans g.noted⟩

theorem State.KeptArticle.settled (h : s.KeptArticle t n) {c : Change} (hc : c.article = n) :
    t.settled c = s.settled c := by
  subst hc
  unfold State.settled
  rw [State.oldPins_congr (congrArg Article.pins h.article) h.we, h.article]

theorem State.closeChange_changeOf (s : State) {k : Nat} (h : k ≠ n) : (s.closeChange k).changeOf n = s.changeOf n := by
  show (s.cd.changes.filter (fun c => c.article != k)).find? (fun c => c.article == n) = s.cd.changes.find? _
  rw [List.find?_filter]
  congr 1
  funext c
  by_cases hc : c.article = n
  · simp [hc, h.symm]
  · simp [hc]

theorem State.settleCheck_kept (s : State) {k : Nat} (h : k ≠ n) : s.KeptArticle (s.settleCheck k) n := by
  cases hc : s.changeOf k with
  | none =>
    rw [State.settleCheck_quiet hc]
    exact .refl s n
  | some c =>
    cases hs : s.settled c with
    | false =>
      rw [State.settleCheck_open hc hs]
      exact .refl s n
    | true =>
      have hnoted := s.settleCheck_noted k
      rw [State.settleCheck_settles hc hs] at hnoted ⊢
      exact ⟨State.closeChange_changeOf _ h, (State.article_setArticle ..).trans (if_neg h.symm), rfl, hnoted⟩

theorem State.emptyCheck_kept (s : State) {k : Nat} (h : k ≠ n) : s.KeptArticle (s.emptyCheck k) n := by
  unfold State.emptyCheck
  dsimp only
  split
  · exact ⟨rfl, (State.article_setArticle ..).trans (if_neg h.symm), rfl, .of_op rfl⟩
  · exact .refl s n

/-- A check made once for every article of a list acts on article n as it does on n alone. -/
theorem State.foldl_kept {f : State → Nat → State} (hf : ∀ v k, k ≠ n → State.KeptArticle v (f v k) n) {l : List Nat}
    (hl : l.Pairwise (· < ·)) (hn : n ∈ l) (s : State) :
    ∃ v, s.KeptArticle v n ∧ (f v n).KeptArticle (l.foldl f s) n := by
  have hskip : ∀ (m : List Nat), n ∉ m → ∀ v, State.KeptArticle v (m.foldl f v) n := by
    intro m
    induction m with
    | nil => exact fun _ v => .refl v n
    | cons k rest ih =>
      intro hm v
      obtain ⟨hk, hrest⟩ := not_or.mp (fun h => hm (List.mem_cons.mpr h))
      exact (hf v k (Ne.symm hk)).trans (ih hrest _)
  obtain ⟨before, behind, rfl⟩ := List.append_of_mem hn
  have hnodup : (before ++ n :: behind).Nodup := hl.imp Nat.ne_of_lt
  obtain ⟨hout, -⟩ := List.nodup_cons.mp (List.nodup_middle.mp hnodup)
  obtain ⟨hbefore, hbehind⟩ := not_or.mp (fun h => hout (List.mem_append.mpr h))
  rw [List.foldl_append]
  exact ⟨_, hskip before hbefore s, hskip behind hbehind _⟩

end

/-! ## One article at the end of an event -/

section
variable {s : State} {n : Nat} {l : List Nat} {c : Change}

/-- Article n meets its own settle check and its own check of R78, and no other touches it. -/
theorem State.finish_at (s : State) (hn : n ∈ l) : ∃ v w, s.KeptArticle v n ∧ (v.settleCheck n).KeptArticle w n
    ∧ (w.emptyCheck n).KeptArticle (s.finish l) n := by
  have hmem := (mem_rising n l).mpr hn
  obtain ⟨v, hv, hchecked⟩ := State.foldl_kept (fun v k hk => v.settleCheck_kept hk) (rising_pairwise l) hmem s
  obtain ⟨w, hw, hend⟩ := State.foldl_kept (fun v k hk => v.emptyCheck_kept hk) (rising_pairwise l) hmem
    ((rising l).foldl State.settleCheck s)
  exact ⟨v, w, hv, hchecked.trans hw, hend⟩

variable (hn : n ∈ l) (hc : s.changeOf n = some c)
include hn hc

theorem State.finish_open (hs : s.settled c = false) : s.KeptArticle (s.finish l) n := by
  obtain ⟨v, w, hv, hw, hend⟩ := s.finish_at hn
  rw [State.settleCheck_open (hv.change.trans hc) ((hv.settled (State.changeOf_number hc)).trans hs)] at hw
  have hkept := hv.trans hw
  rw [State.emptyCheck_open (hkept.change.trans hc)] at hend
  exact hkept.trans hend

/-- A change that has settled is gone, its notice raised, and its article swept (R75, R78, R101). -/
theorem State.finish_settles (hs : s.settled c = true) : (s.finish l).changeOf n = none
    ∧ (s.finish l).article n = Article.swept { s.article n with state := settledState (s.article n).state }
    ∧ ((s.finish l).op.overflow = false → { kind := .changeSettled, time := s.op.clock, subjects :=
        [n, changeKindCode c.kind, c.oldRevision, (s.article n).revision, 0, 0, 1] } ∈ (s.finish l).op.fifo) := by
  have hnumber := State.changeOf_number hc
  obtain ⟨v, w, hv, hw, hend⟩ := s.finish_at hn
  rw [State.settleCheck_settles (hv.change.trans hc) ((hv.settled hnumber).trans hs)] at hw
  obtain ⟨hclosed, harticle, hop⟩ := (v.noteSettled c 0 0 1).closeChange_facts n
  obtain ⟨hswept, hquiet, hempty⟩ := State.emptyCheck_swept (hw.change.trans hclosed)
  refine ⟨hend.change.trans hquiet, ?_, fun ho => ?_⟩
  · rw [hend.article, hswept, hw.article, harticle, show (v.noteSettled c 0 0 1).article n = _ from hv.article]
  · have hraised : Noted [.changeSettled] (v.noteSettled c 0 0 1) (s.finish l) :=
      (((Noted.of_op hop).trans hw.noted).trans (.of_op hempty)).trans hend.noted
    have hnotice := Noted.raised_mem hraised ho
    rwa [hnumber, hv.article, hv.noted.clock] at hnotice

end

end Sys2Proof.Machine
end

section
/-! The PURGEs that the opening of a change offers: each holder's queue and map are what one offer to it alone leaves
(R20, R90, R99). -/

namespace Sys2Proof.Machine

/-! ## What an offer reads and writes of a scale -/

/-- Scale a has the same station record, copy map and channel, and is a holder of the same articles. -/
structure State.SameScale (s t : State) (a : Nat) : Prop where
  station : t.station a = s.station a
  copies : t.copyMap a = s.copyMap a
  channel : t.channel a = s.channel a
  holder : ∀ k, a ∈ (t.article k).holders ↔ a ∈ (s.article k).holders

/-- Nothing is changed but scale a and the marks that name it as a holder. -/
structure State.ScaleOnly (s t : State) (a : Nat) : Prop where
  others : ∀ b, b ≠ a → s.SameScale t b
  changes : t.cd.changes = s.cd.changes
  articles : ∀ k, ∃ l, t.article k = { s.article k with holders := l }

theorem mem_setErase_of_ne {a b : Nat} (h : b ≠ a) (l : List Nat) : b ∈ setErase a l ↔ b ∈ l := by
  simp [setErase, h]

section
variable {s t u : State} {a : Nat}

theorem State.SameScale.refl (s : State) (a : Nat) : s.SameScale s a := ⟨rfl, rfl, rfl, fun _ => Iff.rfl⟩

theorem State.SameScale.trans (h : s.SameScale t a) (g : t.SameScale u a) : s.SameScale u a :=
  ⟨g.station.trans h.station, g.copies.trans h.copies, g.channel.trans h.channel,
    fun k => (g.holder k).trans (h.holder k)⟩

theorem State.SameScale.inService (h : s.SameScale t a) : t.inService a = s.inService a := by
  unfold State.inService
  rw [h.station]

theorem State.ScaleOnly.refl (s : State) (a : Nat) : s.ScaleOnly s a := ⟨fun b _ => .refl s b, rfl, fun _ => ⟨_, rfl⟩⟩

theorem State.ScaleOnly.trans (h : s.ScaleOnly t a) (g : t.ScaleOnly u a) : s.ScaleOnly u a := by
  refine ⟨fun b hb => (h.others b hb).trans (g.others b hb), g.changes.trans h.changes, fun k => ?_⟩
  obtain ⟨l, hl⟩ := h.articles k
  obtain ⟨m, hm⟩ := g.articles k
  exact ⟨m, by rw [hm, hl]⟩

/-! Each part of an offer changes its scale alone, and changes it alike in two states that agree about the scale. -/

theorem State.setStation_scaleOnly (s : State) (a : Nat) (r : Station) : s.ScaleOnly (s.setStation a r) a :=
  ⟨fun _ hb => ⟨(State.station_setStation ..).trans (if_neg hb), rfl, rfl, fun _ => Iff.rfl⟩, rfl, fun _ => ⟨_, rfl⟩⟩

theorem State.SameScale.setStation (h : s.SameScale t a) (r : Station) :
    (s.setStation a r).SameScale (t.setStation a r) a :=
  ⟨by simp, h.copies, h.channel, h.holder⟩

theorem State.removeCopy_copyMap (s : State) (a b n : Nat) : (s.removeCopy a n).copyMap b =
    if b = a then withoutCopy (s.copyMap a) n else s.copyMap b :=
  State.copyMap_setCopyMap ..

theorem State.removeCopy_scaleOnly (s : State) (a n : Nat) : s.ScaleOnly (s.removeCopy a n) a := by
  refine ⟨fun b hb => ⟨rfl, (s.removeCopy_copyMap ..).trans (if_neg hb), rfl, fun k => ?_⟩, rfl, fun k => ?_⟩
  · rw [State.removeCopy_article]
    split
    · exact mem_setErase_of_ne hb _
    · rfl
  · rw [State.removeCopy_article]
    split <;> exact ⟨_, rfl⟩

theorem State.removeCopy_notHolder (s : State) (a n : Nat) : a ∉ ((s.removeCopy a n).article n).holders := by
  rw [State.removeCopy_article, if_pos rfl]
  exact not_mem_setErase a _

theorem State.SameScale.removeCopy (h : s.SameScale t a) (n : Nat) :
    (s.removeCopy a n).SameScale (t.removeCopy a n) a := by
  refine ⟨h.station, by rw [State.removeCopy_copyMap, State.removeCopy_copyMap, h.copies], h.channel, fun k => ?_⟩
  rw [State.removeCopy_article, State.removeCopy_article]
  split
  · exact iff_of_false (not_mem_setErase a _) (not_mem_setErase a _)
  · exact h.holder k

/-- The map with the entry of article n PURGING. -/
def purgingCopy (m : List CopyEntry) (n : Nat) : List CopyEntry :=
  m.map (fun e => if e.article = n then { e with purging := true } else e)

theorem State.markPurging_copyMap (s : State) (a b n : Nat) : (s.markPurging a n).copyMap b =
    if b = a then purgingCopy (s.copyMap a) n else s.copyMap b :=
  State.copyMap_setCopyMap ..

theorem State.markPurging_scaleOnly (s : State) (a n : Nat) : s.ScaleOnly (s.markPurging a n) a :=
  ⟨fun _ hb => ⟨rfl, (s.markPurging_copyMap ..).trans (if_neg hb), rfl, fun _ => Iff.rfl⟩, rfl, fun _ => ⟨_, rfl⟩⟩

theorem State.SameScale.markPurging (h : s.SameScale t a) (n : Nat) :
    (s.markPurging a n).SameScale (t.markPurging a n) a :=
  ⟨h.station, by rw [State.markPurging_copyMap, State.markPurging_copyMap, h.copies], h.channel, h.holder⟩

theorem State.refill_scaleOnly (s : State) (a : Nat) : s.ScaleOnly (s.refill a) a := by
  unfold State.refill
  dsimp only
  split
  · split
    · exact s.setStation_scaleOnly a _
    · exact s.setStation_scaleOnly a _
    · split
      · exact s.setStation_scaleOnly a _
      · exact .refl s a
  · exact .refl s a

/-- A refill reads the station record and, where a SHOW is owed, the channel. -/
theorem State.SameScale.refill (h : s.SameScale t a) : (s.refill a).SameScale (t.refill a) a := by
  have hshow : t.verdictMsg a = s.verdictMsg a := by
    unfold State.verdictMsg
    rw [h.channel]
  by_cases hf : 0 < free (s.station a).queue
  · unfold State.refill
    simp only [h.station, hshow, hf, if_true]
    split
    · exact h.setStation _
    · exact h.setStation _
    · split
      · exact h.setStation _
      · exact h
  · unfold State.refill
    simp only [h.station, hf, if_false]
    exact h

end

/-! ## One offer (R20, R90) -/

/-- The purge backlog with article n behind those that wait; the marker "all" covers it. -/
def backlogWith (n : Nat) : Backlog → Backlog
  | .articles l => .articles (l ++ [n])
  | .all => .all

section
variable {s t : State} {a n : Nat}

theorem State.offerPurge_outOfService (hs : s.inService a = false) : s.offerPurge a n = (s, []) := by
  simp [State.offerPurge, hs]

section
variable (hs : s.inService a = true) (hq : (s.station a).queue.any (unsent (isFillOf n)) = false)
  (hf : ¬ 0 < free (s.station a).queue)
include hs hq hf

/-- A full queue gives up its oldest unsent FILL, whose copy goes with it. -/
theorem State.offerPurge_displaces {k : Nat} (hk : oldestFill (s.station a).queue = some k) :
    let queue := append (withdrawUnsent isFill (s.station a).queue) (.purge n)
    s.offerPurge a n =
      (((s.setStation a { s.station a with queue := queue }).removeCopy a k).markPurging a n, [k]) := by
  simp [State.offerPurge, hs, hq, hf, hk]

/-- A full queue without an unsent FILL lets the article wait in the backlog. -/
theorem State.offerPurge_waits (hk : oldestFill (s.station a).queue = none) : s.offerPurge a n =
    ((s.setStation a { s.station a with backlog := backlogWith n (s.station a).backlog }).markPurging a n, []) := by
  simp only [State.offerPurge, hs, hq, hf, hk]
  cases (s.station a).backlog <;> rfl

end

theorem State.offerPurge_scaleOnly (s : State) (a n : Nat) : s.ScaleOnly (s.offerPurge a n).1 a := by
  unfold State.offerPurge
  dsimp only
  split
  · exact .refl s a
  · split
    · exact ((s.setStation_scaleOnly a _).trans (State.removeCopy_scaleOnly _ a n)).trans (State.refill_scaleOnly _ a)
    · split
      · exact (s.setStation_scaleOnly a _).trans (State.markPurging_scaleOnly _ a n)
      · split
        · exact ((s.setStation_scaleOnly a _).trans (State.removeCopy_scaleOnly _ a _)).trans
            (State.markPurging_scaleOnly _ a n)
        · exact (s.setStation_scaleOnly a _).trans (State.markPurging_scaleOnly _ a n)

theorem State.SameScale.offerPurge (h : s.SameScale t a) (n : Nat) :
    (s.offerPurge a n).1.SameScale (t.offerPurge a n).1 a := by
  cases hs : s.inService a with
  | false => rwa [State.offerPurge_outOfService hs, State.offerPurge_outOfService (h.inService.trans hs)]
  | true =>
    have hs' := h.inService.trans hs
    cases hq : (s.station a).queue.any (unsent (isFillOf n)) with
    | true =>
      rw [State.offerPurge_withdraws hs hq, State.offerPurge_withdraws hs' (by rwa [h.station]), h.station]
      exact ((h.setStation _).removeCopy n).refill
    | false =>
      have hq' : (t.station a).queue.any (unsent (isFillOf n)) = false := by rwa [h.station]
      by_cases hf : 0 < free (s.station a).queue
      · rw [State.offerPurge_appends hs hq hf, State.offerPurge_appends hs' hq' (by rwa [h.station]), h.station]
        exact (h.setStation _).markPurging n
      · have hf' : ¬ 0 < free (t.station a).queue := by rwa [h.station]
        cases hk : oldestFill (s.station a).queue with
        | some k =>
          rw [State.offerPurge_displaces hs hq hf hk, State.offerPurge_displaces hs' hq' hf' (by rwa [h.station]),
            h.station]
          exact ((h.setStation _).removeCopy k).markPurging n
        | none =>
          rw [State.offerPurge_waits hs hq hf hk, State.offerPurge_waits hs' hq' hf' (by rwa [h.station]), h.station]
          exact (h.setStation _).markPurging n

end

theorem copyOf_withoutCopy (m : List CopyEntry) (n : Nat) : copyOf (withoutCopy m n) n = none := by
  simp [copyOf, withoutCopy]

theorem copyOf_purgingCopy {m : List CopyEntry} {n : Nat} {e : CopyEntry} (h : copyOf (purgingCopy m n) n = some e) :
    e.purging = true := by
  have hn : e.article = n := by simpa using List.find?_some h
  obtain ⟨x, -, rfl⟩ := List.mem_map.mp (List.mem_of_find?_eq_some h)
  by_cases hx : x.article = n
  · rw [if_pos hx]
  · rw [if_neg hx] at hn
    exact absurd hn hx

/-- An offer to a scale in service leaves it no VALID entry of the article (R90). -/
theorem State.offerPurge_notValid {s : State} {a n : Nat} (hs : s.inService a = true) {e : CopyEntry}
    (he : copyOf ((s.offerPurge a n).1.copyMap a) n = some e) : e.purging = true := by
  cases hq : (s.station a).queue.any (unsent (isFillOf n)) with
  | true =>
    obtain ⟨hcopies, -⟩ := (State.offerPurge_withdrawn hs hq).withdrawn hq
    rw [hcopies, copyOf_withoutCopy] at he
    cases he
  | false =>
    by_cases hf : 0 < free (s.station a).queue
    · rw [State.offerPurge_appends hs hq hf, State.markPurging_copyMap, if_pos rfl] at he
      exact copyOf_purgingCopy he
    · cases hk : oldestFill (s.station a).queue with
      | some k =>
        rw [State.offerPurge_displaces hs hq hf hk, State.markPurging_copyMap, if_pos rfl] at he
        exact copyOf_purgingCopy he
      | none =>
        rw [State.offerPurge_waits hs hq hf hk, State.markPurging_copyMap, if_pos rfl] at he
        exact copyOf_purgingCopy he

/-! ## The offers to the holders (R99) -/

/-- The offer to one holder: a PURGE where its entry is VALID. -/
def State.purgeHolder (s : State) (n a : Nat) : State × List Nat :=
  match copyOf (s.copyMap a) n with
  | some e => if e.purging then (s, []) else s.offerPurge a n
  | none => (s, [])

section
variable {s t : State} {a n : Nat}

theorem State.purgeHolder_absent (h : copyOf (s.copyMap a) n = none) : s.purgeHolder n a = (s, []) := by
  unfold State.purgeHolder
  rw [h]

theorem State.purgeHolder_purging {e : CopyEntry} (h : copyOf (s.copyMap a) n = some e) (he : e.purging = true) :
    s.purgeHolder n a = (s, []) := by
  unfold State.purgeHolder
  rw [h]
  exact if_pos he

theorem State.purgeHolder_valid {e : CopyEntry} (h : copyOf (s.copyMap a) n = some e) (he : e.purging = false) :
    s.purgeHolder n a = s.offerPurge a n := by
  unfold State.purgeHolder
  rw [h]
  exact if_neg (by simp [he])

theorem State.purgeHolder_cases (s : State) (n a : Nat) :
    s.purgeHolder n a = (s, []) ∨ s.purgeHolder n a = s.offerPurge a n := by
  unfold State.purgeHolder
  split
  · split
    · exact .inl rfl
    · exact .inr rfl
  · exact .inl rfl

theorem State.purgeHolders_cons (s : State) (n a : Nat) (rest : List Nat) : (s.purgeHolders n (a :: rest)).1 =
    ((s.purgeHolder n a).1.purgeHolders n rest).1 := by
  unfold State.purgeHolder
  rw [State.purgeHolders]
  cases copyOf (s.copyMap a) n with
  | none => rfl
  | some e =>
    dsimp only
    split <;> rfl

theorem State.purgeHolder_scaleOnly (s : State) (n a : Nat) : s.ScaleOnly (s.purgeHolder n a).1 a := by
  rcases s.purgeHolder_cases n a with h | h <;> rw [h]
  · exact .refl s a
  · exact s.offerPurge_scaleOnly a n

theorem State.SameScale.purgeHolder (h : s.SameScale t a) (n : Nat) :
    (s.purgeHolder n a).1.SameScale (t.purgeHolder n a).1 a := by
  cases hc : copyOf (s.copyMap a) n with
  | none => rwa [State.purgeHolder_absent hc, State.purgeHolder_absent (by rwa [h.copies])]
  | some e =>
    have hc' : copyOf (t.copyMap a) n = some e := by rwa [h.copies]
    cases he : e.purging with
    | true => rwa [State.purgeHolder_purging hc he, State.purgeHolder_purging hc' he]
    | false =>
      rw [State.purgeHolder_valid hc he, State.purgeHolder_valid hc' he]
      exact h.offerPurge n

/-- A second offer in the same event finds no VALID entry, or the scale out of service. -/
theorem State.purgeHolder_twice (s : State) (n a : Nat) :
    ((s.purgeHolder n a).1.purgeHolder n a).1 = (s.purgeHolder n a).1 := by
  rcases s.purgeHolder_cases n a with h | h
  · rw [h]
    dsimp only
    rw [h]
  · rw [h]
    cases hs : s.inService a with
    | false =>
      rw [State.offerPurge_outOfService hs]
      dsimp only
      rw [h, State.offerPurge_outOfService hs]
    | true =>
      cases hc : copyOf ((s.offerPurge a n).1.copyMap a) n with
      | none => rw [State.purgeHolder_absent hc]
      | some e => rw [State.purgeHolder_purging hc (State.offerPurge_notValid hs hc)]

/-- The offer to a holder with room takes at most one of its entries. -/
theorem State.purgeHolder_offers (hs : s.inService a = true) (hf : 0 < free (s.station a).queue) (n : Nat) :
    Offers a 1 s (s.purgeHolder n a).1 := by
  rcases s.purgeHolder_cases n a with h | h <;> rw [h]
  · exact (Offers.refl a s).mono (by omega)
  · exact (State.offerPurge_evicted hs n hf).offers

end

/-- The offers leave each holder as one offer to it alone would, and every other scale as it was. -/
structure State.HoldersPurged (s t : State) (n : Nat) : Prop where
  others : ∀ a, a ∉ (s.article n).holders → s.SameScale t a
  holders : ∀ a ∈ (s.article n).holders, (s.purgeHolder n a).1.SameScale t a

theorem State.purgeHolders_scales (n a : Nat) (l : List Nat) (s : State) :
    (a ∉ l → s.SameScale (s.purgeHolders n l).1 a)
    ∧ (a ∈ l → (s.purgeHolder n a).1.SameScale (s.purgeHolders n l).1 a) := by
  induction l generalizing s with
  | nil => exact ⟨fun _ => .refl s a, by simp⟩
  | cons b rest ih =>
    rw [State.purgeHolders_cons]
    obtain ⟨hout, hin⟩ := ih (s.purgeHolder n b).1
    have hother : a ≠ b → s.SameScale (s.purgeHolder n b).1 a := (s.purgeHolder_scaleOnly n b).others a
    refine ⟨fun h => ?_, fun h => ?_⟩
    · obtain ⟨hb, hrest⟩ := not_or.mp (fun g => h (List.mem_cons.mpr g))
      exact (hother hb).trans (hout hrest)
    · by_cases hrest : a ∈ rest
      · by_cases hb : a = b
        · subst hb
          have htwice := hin hrest
          rwa [State.purgeHolder_twice] at htwice
        · exact ((hother hb).purgeHolder n).trans (hin hrest)
      · obtain rfl : a = b := (List.mem_cons.mp h).resolve_right hrest
        exact hout hrest

theorem State.purgeHolders_purged (s : State) (n : Nat) : s.HoldersPurged (s.purgeHolders n (s.article n).holders).1 n :=
  ⟨fun a => (s.purgeHolders_scales n a _).1, fun a => (s.purgeHolders_scales n a _).2⟩

/-- The offers change no change in flight and of an article only its holders. -/
theorem State.purgeHolders_articles (n : Nat) (l : List Nat) (s : State) :
    (s.purgeHolders n l).1.cd.changes = s.cd.changes
    ∧ ∀ k, ∃ m, (s.purgeHolders n l).1.article k = { s.article k with holders := m } := by
  induction l generalizing s with
  | nil => exact ⟨rfl, fun _ => ⟨_, rfl⟩⟩
  | cons a rest ih =>
    rw [State.purgeHolders_cons]
    have hone := s.purgeHolder_scaleOnly n a
    obtain ⟨hchanges, harticles⟩ := ih (s.purgeHolder n a).1
    refine ⟨hchanges.trans hone.changes, fun k => ?_⟩
    obtain ⟨l, hl⟩ := hone.articles k
    obtain ⟨m, hm⟩ := harticles k
    exact ⟨m, by rw [hm, hl]⟩

section
variable {s s' t t' : State} {n : Nat}

theorem State.HoldersPurged.then_same (h : s.HoldersPurged t n) (g : ∀ a, t.SameScale t' a) : s.HoldersPurged t' n :=
  ⟨fun a ha => (h.others a ha).trans (g a), fun a ha => (h.holders a ha).trans (g a)⟩

theorem State.HoldersPurged.after_same (h : s'.HoldersPurged t n) (g : ∀ a, s.SameScale s' a) : s.HoldersPurged t n :=
  ⟨fun a ha => (g a).trans (h.others a (fun hm => ha (((g a).holder n).mp hm))),
    fun a ha => ((g a).purgeHolder n).trans (h.holders a (((g a).holder n).mpr ha))⟩

/-- The four places of R20 that a PURGE takes, by the queue and the backlog of its holder. -/
theorem State.HoldersPurged.offered (h : s.HoldersPurged t n) : s.PurgesOffered t n := by
  refine ⟨fun a ha => ⟨(h.others a ha).station, (h.others a ha).copies⟩, fun a ha e hs hc => ?_⟩
  have hone := h.holders a ha
  refine ⟨fun he => ?_, fun he hq => ?_, fun he hq hl => ?_, fun k he hq hl hk => ?_, fun l he hq hl hk hb => ?_⟩
  · rw [State.purgeHolder_purging hc he] at hone
    exact ⟨hone.station, hone.copies⟩
  · rw [State.purgeHolder_valid hc he] at hone
    obtain ⟨hcopies, hholder⟩ := (State.offerPurge_withdrawn hs hq).withdrawn hq
    refine ⟨hone.copies.trans hcopies, fun hm => hholder ((hone.holder n).mp hm), fun hb ho => hone.station.trans ?_⟩
    have hqueue : State.station (State.removeCopy (s.setStation a { s.station a with
        queue := withdrawUnsent (isFillOf n) (s.station a).queue }) a n) a = _ :=
      (State.station_setStation ..).trans (if_pos rfl)
    rw [State.offerPurge_withdraws hs hq, State.refill_nothingOwed (by rwa [hqueue]) (by rwa [hqueue]), hqueue]
  · rw [State.purgeHolder_valid hc he, State.offerPurge_appends hs hq (by unfold free; omega)] at hone
    exact ⟨hone.station.trans ((State.station_setStation ..).trans (if_pos rfl)),
      hone.copies.trans ((State.markPurging_copyMap ..).trans (if_pos rfl))⟩
  · rw [State.purgeHolder_valid hc he, State.offerPurge_displaces hs hq (by unfold free; omega) hk] at hone
    refine ⟨hone.station.trans ((State.station_setStation ..).trans (if_pos rfl)), hone.copies.trans ?_, fun hm => ?_⟩
    · rw [State.markPurging_copyMap, if_pos rfl, State.removeCopy_copyMap, if_pos rfl]
      rfl
    · exact State.removeCopy_notHolder _ a k ((hone.holder k).mp hm)
  · rw [State.purgeHolder_valid hc he, State.offerPurge_waits hs hq (by unfold free; omega) hk, hb] at hone
    exact ⟨hone.station.trans ((State.station_setStation ..).trans (if_pos rfl)),
      hone.copies.trans ((State.markPurging_copyMap ..).trans (if_pos rfl))⟩

end

end Sys2Proof.Machine
end

section
/-! A change opened: its record, its notice and what it leaves of its article, for ART.CHANGE, ART.RETIRE and OVERRIDE
(R71 to R75, R78, R81, R82, R98 to R101). -/

namespace Sys2Proof.Machine

theorem insertChange_finds {l : List Change} {c : Change} (h : l.find? (fun d => d.article == c.article) = none) :
    (insertChange c l).find? (fun d => d.article == c.article) = some c := by
  induction l with
  | nil => simp [insertChange]
  | cons d rest ih =>
    have hd : (d.article == c.article) = false := by simpa using (List.find?_eq_none.mp h) d (by simp)
    unfold insertChange
    split
    · simp
    · rw [List.find?_cons, hd] at h ⊢
      exact ih h

/-- The record of a change opened for article n (R98). -/
def State.newChange (s : State) (n : Nat) (kind : ChangeKind) (old : Nat) : Change :=
  { article := n, kind := kind, oldRevision := old, deadline := moment s.op.now (1000 * s.op.settings.settleTimeout) }

/-- What the opening of the change c leaves of article n, whose record is r when it opens, whether the change settles
within the event or not (R72, R99 to R101). -/
structure State.ChangeOpened (s t : State) (n : Nat) (r : Article) (c : Change) : Prop where
  purged : s.HoldersPurged t n
  noted : Noted [.changeSettled] s t
  fate : t.changeOf n = some c ∧ (∃ l, t.article n = { r with holders := l })
        ∧ ¬ ((t.article n).holders = [] ∧ t.oldPins c = [])
      ∨ t.changeOf n = none ∧ t.oldPins c = []
        ∧ t.article n = Article.swept { r with state := settledState r.state, holders := [] }
        ∧ (t.op.overflow = false → { kind := .changeSettled, time := s.op.clock, subjects :=
            [n, changeKindCode c.kind, c.oldRevision, r.revision, 0, 0, 1] } ∈ t.op.fifo)

theorem State.finish_same (s : State) (l : List Nat) (a : Nat) : s.SameScale (s.finish l) a :=
  ⟨State.station_of_lc (s.finish_lc l) a, s.finish_copyMap l a, State.channel_of_we (s.finish_we l) a,
    fun k => by rw [State.finish_holders]⟩

theorem State.settled_iff {s : State} {c : Change} {n : Nat} (hc : c.article = n) :
    s.settled c = true ↔ (s.article n).holders = [] ∧ s.oldPins c = [] := by
  subst hc
  simp [State.settled]

/-- A change stands open after the checks of an event that touched its article exactly while a holder or an old pin is
left (R75, R78, R100, R101). -/
theorem State.finish_fate {s : State} {n : Nat} {c : Change} {l : List Nat} (hn : n ∈ l) (hc : s.changeOf n = some c) :
    let t := s.finish l
    t.changeOf n = some c ∧ t.article n = s.article n ∧ ¬ ((t.article n).holders = [] ∧ t.oldPins c = [])
    ∨ t.changeOf n = none ∧ t.oldPins c = [] ∧ (s.article n).holders = []
      ∧ t.article n = Article.swept { s.article n with state := settledState (s.article n).state }
      ∧ (t.op.overflow = false → { kind := .changeSettled, time := s.op.clock, subjects :=
          [n, changeKindCode c.kind, c.oldRevision, (s.article n).revision, 0, 0, 1] } ∈ t.op.fifo) := by
  intro t
  have hnumber := State.changeOf_number hc
  have holdPins : t.oldPins c = s.oldPins c := State.oldPins_congr (s.finish_pins l _) (s.finish_we l)
  cases hs : s.settled c with
  | false =>
    have hkept := State.finish_open hn hc hs
    refine .inl ⟨hkept.change.trans hc, hkept.article, ?_⟩
    rw [hkept.article, holdPins, ← State.settled_iff hnumber, hs]
    simp
  | true =>
    obtain ⟨hclosed, hswept, hnotice⟩ := State.finish_settles hn hc hs
    obtain ⟨hholders, hpins⟩ := (State.settled_iff hnumber).mp hs
    exact .inr ⟨hclosed, holdPins.trans hpins, hholders, hswept, hnotice⟩

theorem State.changeOf_of_changes {s t : State} (h : t.cd.changes = s.cd.changes) (n : Nat) :
    t.changeOf n = s.changeOf n := by
  unfold State.changeOf
  rw [h]

theorem State.openChange_opened {s : State} {n : Nat} (h : s.changeOf n = none) (kind : ChangeKind) (old : Nat) :
    s.ChangeOpened (s.openChange n kind old) n (s.article n) (s.newChange n kind old) := by
  let c := s.newChange n kind old
  let v := s.setChanges (insertChange c s.cd.changes)
  obtain ⟨r, hr⟩ : ∃ r, r = v.purgeHolders n (s.article n).holders := ⟨_, rfl⟩
  have hopen : s.openChange n kind old = r.1.finish (n :: r.2) := by
    rw [hr]
    rfl
  have hfound : v.changeOf n = some c := insertChange_finds (c := c) (l := s.cd.changes) h
  have hpurged : v.HoldersPurged r.1 n := hr ▸ v.purgeHolders_purged n
  have hpurges : Changes [.lc, .cd, .art] v r.1 := hr ▸ State.purgeHolders_changes n _ (Changes.refl _ v) rfl
  obtain ⟨hchanges, harticles⟩ := State.purgeHolders_articles n (s.article n).holders v
  rw [← hr] at hchanges harticles
  obtain ⟨l, hl⟩ : ∃ l, r.1.article n = { s.article n with holders := l } := harticles n
  have hop : r.1.op = s.op := hpurges.same .op rfl
  have hfate := State.finish_fate (List.mem_cons_self (a := n) (l := r.2))
    ((State.changeOf_of_changes hchanges n).trans hfound)
  rw [hl, hop] at hfate
  rw [hopen]
  refine ⟨(hpurged.then_same (r.1.finish_same _)).after_same (fun _ => ⟨rfl, rfl, rfl, fun _ => Iff.rfl⟩),
    (Noted.of_op hop).trans (State.finish_noted ..),
    hfate.imp (fun ⟨hc, harticle, hleft⟩ => ⟨hc, ⟨l, harticle⟩, hleft⟩) ?_⟩
  rintro ⟨hclosed, hpins, hholders, hswept, hnotice⟩
  obtain rfl : l = [] := hholders
  exact ⟨hclosed, hpins, hswept, hnotice⟩

/-! ## A content changed (R71, R72, R82) -/

/-- What a change of content to x leaves of article n, with the change d in flight or settled. -/
structure State.ContentChanged (s t : State) (n : Nat) (x : Content) (d : Change) : Prop where
  content : (t.article n).content = some x
  revision : (t.article n).revision = nextRevision (s.article n).revision
  refs : (t.article n).refs = (s.article n).refs
  pins : (t.article n).pins = (s.article n).pins
  fate : t.changeOf n = some d ∧ (t.article n).state = .changing ∧ ¬ ((t.article n).holders = [] ∧ t.oldPins d = [])
    ∨ t.changeOf n = none ∧ (t.article n).state = .live ∧ (t.article n).holders = [] ∧ t.oldPins d = []

section
variable {s : State} {n : Nat}

/-- A record written to article n with the holders it has is nothing to the scales. -/
theorem State.setArticle_same {r : Article} (h : r.holders = (s.article n).holders) (a : Nat) :
    s.SameScale (s.setArticle n r) a := by
  refine ⟨rfl, rfl, rfl, fun k => ?_⟩
  rw [State.article_setArticle]
  split
  · rename_i hk
    rw [h, hk]
  · rfl

theorem Article.swept_of_ne {r : Article} (h : r.state ≠ .retiring) : r.swept = r := if_neg (fun hc => h hc.1)

/-- The opening of a change for a record written to the slot first (R71, R74). -/
theorem State.setArticle_opened (hc : s.changeOf n = none) {r : Article} (hr : r.holders = (s.article n).holders)
    (kind : ChangeKind) (old : Nat) :
    s.ChangeOpened ((s.setArticle n r).openChange n kind old) n r (s.newChange n kind old) := by
  obtain ⟨hpurged, hnoted, hfate⟩ := State.openChange_opened (s := s.setArticle n r) hc kind old
  rw [State.article_setArticle, if_pos rfl] at hfate
  exact ⟨hpurged.after_same (State.setArticle_same hr), hnoted, hfate⟩

theorem State.changeArticle_changed (hc : s.changeOf n = none) (x : Content) :
    let t := s.changeArticle n x
    let d := s.newChange n .change (s.article n).revision
    s.HoldersPurged t n ∧ Noted [.changeSettled] s t ∧ s.ContentChanged t n x d
    ∧ (t.changeOf n = none → t.op.overflow = false → { kind := .changeSettled, time := s.op.clock, subjects :=
        [n, 1, (s.article n).revision, nextRevision (s.article n).revision, 0, 0, 1] } ∈ t.op.fifo) := by
  obtain ⟨hpurged, hnoted, hfate⟩ := State.setArticle_opened hc (r := { s.article n with
    state := .changing, content := some x, revision := nextRevision (s.article n).revision }) rfl .change
    (s.article n).revision
  refine ⟨hpurged, hnoted, ?_⟩
  rcases hfate with ⟨hopen, ⟨l, harticle⟩, hleft⟩ | ⟨hclosed, hpins, harticle, hnotice⟩
  · have hrecord : (s.changeArticle n x).article n = _ := harticle
    refine ⟨⟨by rw [hrecord], by rw [hrecord], by rw [hrecord], by rw [hrecord], .inl ⟨hopen, by rw [hrecord], hleft⟩⟩,
      fun hclosed => absurd (hopen.symm.trans hclosed) (by simp)⟩
  · rw [Article.swept_of_ne (by simp [settledState])] at harticle
    have hrecord : (s.changeArticle n x).article n = _ := harticle
    exact ⟨⟨by rw [hrecord], by rw [hrecord], by rw [hrecord], by rw [hrecord],
      .inr ⟨hclosed, by rw [hrecord]; rfl, by rw [hrecord], hpins⟩⟩, fun _ => hnotice⟩

end

/-! ## ART.CHANGE and ART.RETIRE (R71, R74) -/

section
variable {s u : State} {body : List Byte} {r : Answer} (hr : s.op.resetLow = false)
include hr

theorem State.exec_artChange (hl : body.length ≤ 255) (h : s.artChange body = (u, r)) :
    exec (.artChange body) s = .next (u.responded 17 r.result r.clamped r.body (3 + body.length)) :=
  congrArg _ (State.transact_responds hr hl h)

theorem State.exec_artRetire (hl : body.length = 2) (h : s.artRetire body = (u, r)) :
    exec (.artRetire body) s = .next (u.responded 18 r.result r.clamped r.body 5) := by
  have hexec : exec (.artRetire body) s = .next (s.transact 18 body (fun t => t.artRetire body)) := rfl
  rwa [State.transact_responds hr (by omega) h, hl] at hexec

end

/-- The answer to a change or a retirement of an article that is not LIVE (R71, R74). -/
def notLive : ArticleState → Option ResultCode
  | .empty => some .notFound
  | .changing => some .busy
  | .retiring => some .wrongState
  | .live => none

section
variable {body : List Byte}

/-- ART.CHANGE with a body of its layout, by the article's state and the content (R71). -/
theorem State.artChange_eq (s : State) (h : contentLaidOut body) : s.artChange body =
    (notLive (s.article (field body 1 2)).state).elim
      ((contentOf body).elim (s, .refuse .badArg)
        (fun c => (s.changeArticle (field body 1 2) c, .clamp (contentClamped body))))
      (fun code => (s, .refuse code)) := by
  unfold State.artChange
  rw [contentForm_of_laidOut h]
  dsimp only
  cases (s.article (field body 1 2)).state <;> cases contentOf body <;> rfl

/-- ART.RETIRE with a body of its length and an article number, by the article's state (R74). -/
theorem State.artRetire_eq (s : State) (hl : body.length = 2) (h1 : 1 ≤ field body 1 2) (h2 : field body 1 2 ≤ 2048) :
    s.artRetire body = (notLive (s.article (field body 1 2)).state).elim
      ((s.setArticle (field body 1 2) { s.article (field body 1 2) with state := .retiring }).openChange (field body 1 2)
        .retire (s.article (field body 1 2)).revision, .ok [])
      (fun code => (s, .refuse code)) := by
  unfold State.artRetire
  rw [if_neg (by simp [hl, articleNumber_of_range h1 h2])]
  dsimp only
  cases (s.article (field body 1 2)).state <;> rfl

end

/-- Settles O27. -/
theorem articleChangesOpen : Obligations.ArticleChangesOpen := by
  intro s body hr hl n r record notice
  refine ⟨fun h => ?_, fun hl2 h1 h2 => ?_⟩
  · have hrun := s.artChange_eq h
    have hrefused : ∀ code, notLive r.state = some code →
        exec (.artChange body) s = .next (s.responded 17 code false [] (3 + body.length)) := fun code hs => by
      rw [hs] at hrun
      exact State.exec_artChange hr hl hrun
    refine ⟨fun hs => hrefused _ (by rw [hs]; rfl), fun hs => hrefused _ (by rw [hs]; rfl),
      fun hs => hrefused _ (by rw [hs]; rfl), fun hs hrange => ?_, fun hs hrange hchange => ?_⟩
    · rw [hs, contentOf_outOfRange hrange] at hrun
      exact State.exec_artChange hr hl hrun
    · obtain ⟨c, hc, hof⟩ := contentOf_inRange hrange
      rw [hs, hc] at hrun
      have hexec := State.exec_artChange hr hl hrun
      obtain ⟨hpurged, -, hchanged, hnotice⟩ := State.changeArticle_changed hchange c
      generalize s.changeArticle (field body 1 2) c = u at hexec hpurged hchanged hnotice
      refine ⟨_, c, hexec, hof, rfl, hchanged.content, hchanged.revision, hchanged.refs, hchanged.pins,
        hpurged.offered, ?_⟩
      exact hchanged.fate.imp id (fun ⟨hclosed, hlive, hholders, hpins⟩ =>
        ⟨hclosed, hlive, hholders, hpins, hnotice hclosed⟩)
  · have hrun := s.artRetire_eq hl2 h1 h2
    have hrefused : ∀ code, notLive r.state = some code →
        exec (.artRetire body) s = .next (s.responded 18 code false [] 5) := fun code hs => by
      rw [hs] at hrun
      exact State.exec_artRetire hr hl2 hrun
    refine ⟨fun hs => hrefused _ (by rw [hs]; rfl), fun hs => hrefused _ (by rw [hs]; rfl),
      fun hs => hrefused _ (by rw [hs]; rfl), fun hs hchange => ?_⟩
    rw [hs] at hrun
    have hexec := State.exec_artRetire hr hl2 hrun
    obtain ⟨hpurged, -, hfate⟩ :=
      State.setArticle_opened hchange (r := { r with state := .retiring }) rfl .retire r.revision
    generalize State.openChange _ _ _ _ = u at hexec hpurged hfate
    refine ⟨_, hexec, rfl, hpurged.offered, ?_⟩
    refine hfate.imp (fun ⟨hopen, ⟨l, harticle⟩, hleft⟩ => ?_) (fun ⟨hclosed, hpins, harticle, hnotice⟩ => ?_)
    · exact ⟨hopen, (congrArg Article.state harticle :), (congrArg Article.revision harticle :),
        (congrArg Article.content harticle :), (congrArg Article.refs harticle :), (congrArg Article.pins harticle :),
        hleft⟩
    · refine ⟨hclosed, hpins, hnotice, fun hrefs hnone => harticle.trans (if_pos ⟨rfl, rfl, hnone, hrefs⟩),
        fun hkept => harticle.trans (if_neg (fun ⟨_, _, hnone, hrefs⟩ => ?_))⟩
      exact hkept.elim (fun h => h hrefs) (fun h => h hnone)

end Sys2Proof.Machine
end

section
/-! OVERRIDE: its checks in order, the change of price it opens, its notice and its REPLY (R81, R82). -/

namespace Sys2Proof.Machine

/-! ## The checks of R81 -/

/-- What the state of the article and the new price answer, the last checks of R81; none where they pass. -/
def overrideAnswer (price : Nat) : ArticleState → Option ReplyCode
  | .empty => some .noArticle
  | .retiring => some .noArticle
  | .changing => some .busy
  | .live => if price < 1 ∨ 99999 < price then some .badValue else none

section
variable {s : State} {a n price c : Nat}

theorem State.overrideRefused_proof (h : (s.station a).state = .proof) :
    s.overrideRefused a n price = some .proofOnly := if_pos h

theorem State.overrideRefused_unmanned (h : (s.station a).state ≠ .proof) (hc : s.clerkAt a = none) :
    s.overrideRefused a n price = some .noClerk := by
  unfold State.overrideRefused
  rw [if_neg h, hc]

/-- The checks that follow those of the scale, for its clerk c. -/
theorem State.overrideRefused_manned (h : s.mans a c) : s.overrideRefused a n price =
    if (s.clerk c).supervisor = false then some .notSupervisor
    else if n < 1 ∨ 2048 < n then some .noArticle
    else if s.op.settings.priceLock ≤ n then some .locked
    else overrideAnswer price (s.article n).state := by
  obtain ⟨hclerk, hmode⟩ := h
  have hnumber : (!articleNumber n) = true ↔ n < 1 ∨ 2048 < n := by
    simp [articleNumber]
  unfold State.overrideRefused
  simp only [if_neg hmode, hclerk, hnumber, Bool.not_eq_true']
  cases (s.article n).state <;> rfl

theorem State.takeOverride_refused {code : ReplyCode} (h : s.overrideRefused a n price = some code) :
    s.takeOverride a n price = s.reply a 21 code [] := by
  unfold State.takeOverride
  rw [h]

theorem State.takeOverride_accepted {x : Content} (h : s.overrideRefused a n price = none)
    (hx : (s.article n).content = some x) (hc : s.clerkAt a = some c) : s.takeOverride a n price =
      ((s.changeArticle n { x with price := price }).raise .override
        [n, nextRevision (s.article n).revision, x.price, price, a, c]).reply a 21 .ok
        (chars 2 n ++ chars 1 (nextRevision (s.article n).revision)) := by
  unfold State.takeOverride
  rw [h, hx, hc]
  rfl

theorem State.markTaken_overrideRefused (s : State) (a n price : Nat) :
    (s.markTaken a).overrideRefused a n price = s.overrideRefused a n price := by
  unfold State.overrideRefused
  rw [State.markTaken_state]
  rfl

theorem State.exec_override (h : s.takes a) (n price : Nat) :
    exec (.override a n price) s = .next ((s.markTaken a).takeOverride a n price) :=
  congrArg _ (State.deliverAction_takes h _)

theorem State.override_turnsAway (h : s.takes a) {code : ReplyCode} (hc : s.overrideRefused a n price = some code) :
    s.turnsAway (.override a n price) a 21 code :=
  (State.exec_override h n price).trans
    (congrArg _ (State.takeOverride_refused ((s.markTaken_overrideRefused a n price).trans hc)))

end

/-! ## The change of price (R82) -/

/-- Where one holder has room, the offers leave it in service and take at most one of its entries. -/
theorem State.HoldersPurged.room {s t : State} {a n : Nat} (h : s.HoldersPurged t n) (hs : s.inService a = true)
    (hf : 0 < free (s.station a).queue) : t.inService a = true
      ∧ ordinary (t.station a).queue ≤ ordinary (s.station a).queue + 1 := by
  by_cases ha : a ∈ (s.article n).holders
  · have hsame := h.holders a ha
    have hoffers := State.purgeHolder_offers hs hf n
    rw [hsame.inService, hsame.station, hoffers.inService_eq]
    exact ⟨hs, hoffers.room⟩
  · have hsame := h.others a ha
    rw [hsame.inService, hsame.station]
    exact ⟨hs, by omega⟩

theorem State.ContentChanged.congr {s t u : State} {n : Nat} {x : Content} {d : Change} (h : s.ContentChanged t n x d)
    (ha : u.art = t.art) (hc : u.cd = t.cd) (hw : u.we = t.we) : s.ContentChanged u n x d := by
  have harticle := State.article_of_art ha
  have hpins : u.oldPins d = t.oldPins d := State.oldPins_congr (by rw [harticle]) hw
  obtain ⟨hcontent, hrevision, hrefs, hpinned, hfate⟩ := h
  rw [← harticle] at hcontent hrevision hrefs hpinned
  rw [← harticle, ← hpins, ← State.changeOf_of_cd hc] at hfate
  exact ⟨hcontent, hrevision, hrefs, hpinned, hfate⟩

/-- The notice and the REPLY of an OVERRIDE follow the change it opens, on a scale that three free entries admitted. -/
theorem State.changeArticle_replied {s : State} {a n : Nat} (hs : s.inService a = true)
    (hq : ordinary (s.station a).queue ≤ 5) (hc : s.changeOf n = none) (x : Content) (subjects : List Nat)
    (data : List Byte) : ∃ t u, u = s.changeArticle n x ∧ t = (u.raise .override subjects).reply a 21 .ok data
    ∧ t.answered a 21 .ok data ∧ s.ContentChanged t n x (s.newChange n .change (s.article n).revision)
    ∧ s.PurgesOffered u n ∧ t.op = (u.raise .override subjects).op ∧ u.op.clock = s.op.clock
    ∧ ∃ l, u.op.fifo = s.op.fifo ++ l := by
  obtain ⟨hpurged, hnoted, hchanged, -⟩ := State.changeArticle_changed hc x
  obtain ⟨u, hu⟩ : ∃ u, u = s.changeArticle n x := ⟨_, rfl⟩
  rw [← hu] at hpurged hnoted hchanged
  obtain ⟨hserving, hleft⟩ := hpurged.room hs (by unfold free; omega)
  have hreply : Changes [.lc] (u.raise .override subjects) ((u.raise .override subjects).reply a 21 .ok data) :=
    State.reply_changes a 21 .ok data (Changes.refl _ _) rfl
  have hfree : 0 < free (u.station a).queue := by
    unfold free
    omega
  obtain ⟨l, hl, -⟩ := hnoted.fifo
  exact ⟨_, u, hu, rfl, State.reply_answered _ a 21 .ok data hserving hfree,
    hchanged.congr (hreply.same .art rfl) (hreply.same .cd rfl) (hreply.same .we rfl), hpurged.offered,
    hreply.same .op rfl, hnoted.clock, l, hl⟩

/-- Settles O28. -/
theorem overrideChangesPrice : Obligations.OverrideChangesPrice := by
  intro s a n price h r i record
  refine ⟨fun hp => State.override_turnsAway h (State.overrideRefused_proof hp),
    fun hp hc => State.override_turnsAway h (State.overrideRefused_unmanned hp hc), fun c hm => ?_⟩
  have hchecks := State.overrideRefused_manned (n := n) (price := price) hm
  refine ⟨fun hflag => ?_, fun hflag hn => ?_, fun hflag h1 h2 => ⟨fun hlock => ?_, fun hlock => ?_⟩⟩
  · rw [if_pos hflag] at hchecks
    exact State.override_turnsAway h hchecks
  · rw [if_neg (by simp [hflag]), if_pos hn] at hchecks
    exact State.override_turnsAway h hchecks
  · rw [if_neg (by simp [hflag]), if_neg (by omega), if_pos hlock] at hchecks
    exact State.override_turnsAway h hchecks
  rw [if_neg (by simp [hflag]), if_neg (by omega), if_neg (by omega)] at hchecks
  refine ⟨fun hstate => ?_, fun hstate => ?_, fun hstate hprice => ?_, fun x hstate hx hchange hlow hhigh => ?_⟩
  · refine State.override_turnsAway h (hchecks.trans ?_)
    rcases hstate with hstate | hstate <;> rw [hstate] <;> rfl
  · exact State.override_turnsAway h (hchecks.trans (by rw [hstate]; rfl))
  · exact State.override_turnsAway h (hchecks.trans (by rw [hstate]; exact if_pos hprice))
  · obtain ⟨hclerk, -⟩ := hm
    have haccepted : (s.markTaken a).overrideRefused a n price = none :=
      (s.markTaken_overrideRefused a n price).trans (hchecks.trans (by rw [hstate]; exact if_neg (by omega)))
    have hexec := (State.exec_override h n price).trans (congrArg _ (State.takeOverride_accepted haccepted hx hclerk))
    obtain ⟨hservice, hroom⟩ := State.takes_room h
    obtain ⟨t, u, hu, ht, hanswered, hchanged, hpurges, hnotices⟩ := State.changeArticle_replied hservice hroom hchange
      { x with price := price } [n, nextRevision r.revision, x.price, price, a, c]
      (chars 2 n ++ chars 1 (nextRevision r.revision))
    rw [hu] at ht
    exact ⟨t, u, hexec.trans (congrArg _ ht.symm), hu, hanswered, hchanged.content, hchanged.revision, hchanged.refs,
      hchanged.pins, hpurges, hchanged.fate, hnotices⟩

end Sys2Proof.Machine
end

section
/-! CLEAR and PURGED: a pin released and a PURGING copy removed, each with the settle check of its article (R91, R93, R96,
R97, R100, R101). -/

namespace Sys2Proof.Machine

/-! ## A pin released (R93, R96, R97) -/

/-- Every event that releases scale a's pin, and changes nothing else but the Line Controller before its checks, ends the
pin with the settle check of its article. -/
theorem State.releasePin_pinEnded {s x : State} {a : Nat} {p : Snapshot} (hp : (s.channel a).ctx.pin = some p)
    (hx : Changes [.lc] (s.releasePin a) x) :
    s.PinEnded (x.finish [p.number]) (x.finish [p.number]).op a p.number ((s.article p.number).withoutPin a) := by
  have hrelease : Changes [.we, .art, .lc] s (s.releasePin a) := State.releasePin_changes a (Changes.refl _ s) rfl
  have hchannel := State.channel_of_we (hx.same .we rfl)
  have hpinned : s.pinned a = some p.number := by simp [State.pinned, hp]
  refine State.finish_pinEnded ?_ ?_ ?_ (fun b hb => ?_) (fun b hb => ?_) (fun c _ hmem => ?_)
  · rw [State.article_of_art (hx.same .art rfl), State.releasePin_article, if_pos hpinned]
    rfl
  · rw [hx.same .cd rfl, hrelease.same .cd rfl]
  · rw [hx.same .op rfl, hrelease.same .op rfl]
  · simp [Article.withoutPin, hb]
  · rw [hchannel, State.releasePin_channel, if_neg (fun h => hb h.1)]
  · obtain ⟨-, q, hq, -⟩ := State.mem_oldPins.mp hmem
    rw [hchannel, State.releasePin_pin] at hq
    cases hq

/-! ## CLEAR (R96) -/

section
variable {s : State} {a : Nat}

theorem State.exec_clear (h : s.takes a) : exec (.clear a) s = .next ((s.markTaken a).takeClear a) :=
  congrArg _ (State.deliverAction_takes h _)

/-- The state after the release and its REPLY, before the settle check. -/
def State.cleared (s : State) (a : Nat) : State := (s.releasePin a).reply a 2 .ok []

theorem State.takeClear_eq (s : State) (a : Nat) : s.takeClear a = (s.cleared a).finish (s.unpinTouches a) := rfl

theorem State.cleared_changes (s : State) (a : Nat) : Changes [.lc] (s.releasePin a) (s.cleared a) :=
  State.reply_changes a 2 .ok [] (Changes.refl _ _) rfl

theorem State.cleared_offers (s : State) (a : Nat) : Offers a 2 s (s.cleared a) :=
  (s.releasePin_offers a).trans (State.reply_offers ..)

theorem State.takeClear_channel (s : State) (a b : Nat) : (s.takeClear a).channel b =
    if b = a ∧ (s.channel a).ctx.pin.isSome = true then
      judged (unpinned (s.channel a)) (s.verdictOf a (unpinned (s.channel a)))
    else s.channel b := by
  rw [State.takeClear_eq, State.channel_of_we (State.finish_we ..),
    State.channel_of_we ((s.cleared_changes a).same .we rfl), State.releasePin_channel]

/-- The service context after a CLEAR keeps its clerk and holds no pin. -/
theorem State.takeClear_ctx (s : State) (a : Nat) : ((s.takeClear a).channel a).ctx.pin = none
    ∧ ((s.takeClear a).channel a).ctx.clerk = s.clerkAt a := by
  rw [State.takeClear_channel]
  split
  · rw [judged_ctx]
    exact ⟨rfl, rfl⟩
  · rename_i h
    exact ⟨by simpa using h, rfl⟩

/-- A CLEAR without a pin is its REPLY alone. -/
theorem State.takeClear_unpinned (hp : (s.channel a).ctx.pin = none) : Changes [.lc] s (s.takeClear a) := by
  have hpinned : s.pinned a = none := by simp [State.pinned, hp]
  have hrelease : s.releasePin a = s := by simp [State.releasePin, hpinned]
  have hclear : s.takeClear a = s.cleared a := by
    rw [State.takeClear_eq, State.unpinTouches, hpinned]
    rfl
  have hchanges := s.cleared_changes a
  rwa [hrelease, ← hclear] at hchanges

theorem State.takeClear_pinEnded {p : Snapshot} (hp : (s.channel a).ctx.pin = some p) :
    s.PinEnded (s.takeClear a) (s.takeClear a).op a p.number ((s.article p.number).withoutPin a) := by
  have htouched : s.unpinTouches a = [p.number] := by simp [State.unpinTouches, State.pinned, hp]
  rw [State.takeClear_eq, htouched]
  exact State.releasePin_pinEnded hp (s.cleared_changes a)

/-- The REPLY of a CLEAR and what it leaves of the Line Controller, where three entries were free. -/
theorem State.clear_answered (h : s.takes a) : ((s.markTaken a).takeClear a).answered a 2 .ok []
    ∧ s.took ((s.markTaken a).takeClear a) a := by
  obtain ⟨hs, hroom⟩ := State.takes_room h
  have hlc : ((s.markTaken a).takeClear a).lc = ((s.markTaken a).cleared a).lc := State.finish_lc ..
  exact ⟨State.answered_of_lc hlc (((s.markTaken a).releasePin_offers a).answered hs (by omega)),
    State.took_of_offers (((s.markTaken a).cleared_offers a).then_lc hlc)⟩

end

/-! ## The checks at the end of an event that touched one article (R78, R100, R101) -/

section
variable {s : State} {n : Nat} {c : Change}

theorem State.finishOne_eq (s : State) (n : Nat) : s.finish [n] = (s.settleCheck n).emptyCheck n := rfl

theorem State.finishOne_quiet (h : s.changeOf n = none) :
    (s.finish [n]).op = s.op ∧ (s.finish [n]).changeOf n = none := by
  obtain ⟨-, hclosed, hop⟩ := State.emptyCheck_swept h
  rw [State.finishOne_eq, State.settleCheck_quiet h]
  exact ⟨hop, hclosed⟩

theorem State.finishOne_open (h : s.changeOf n = some c) (hs : s.settled c = false) : s.finish [n] = s := by
  rw [State.finishOne_eq, State.settleCheck_open h hs, State.emptyCheck_open h]

theorem State.finishOne_settles_op (h : s.changeOf n = some c) (hs : s.settled c = true) :
    (s.finish [n]).op = (s.noteSettled c 0 0 1).op := by
  obtain ⟨hclosed, -, hop⟩ := (s.noteSettled c 0 0 1).closeChange_facts n
  obtain ⟨-, -, hempty⟩ := State.emptyCheck_swept hclosed
  rw [State.finishOne_eq, State.settleCheck_settles h hs]
  exact hempty.trans hop

end

/-! ## A copy removed (R91) -/

theorem setErase_eq_nil {a : Nat} {l : List Nat} : setErase a l = [] ↔ ∀ b ∈ l, b = a := by
  simp [setErase]

section
variable (s : State) (a n : Nat)

theorem State.removeCopy_op : (s.removeCopy a n).op = s.op :=
  (State.removeCopy_changes a n (Changes.refl [.cd, .art] s) rfl).same .op rfl

theorem State.removeCopy_changeOf (k : Nat) : (s.removeCopy a n).changeOf k = s.changeOf k :=
  State.changeOf_of_changes (s.removeCopy_scaleOnly a n).changes k

theorem State.removeCopy_oldPins (c : Change) : (s.removeCopy a n).oldPins c = s.oldPins c := by
  refine State.oldPins_congr ?_ ((State.removeCopy_changes a n (Changes.refl [.cd, .art] s) rfl).same .we rfl)
  rw [State.removeCopy_article]
  split <;> rfl

/-- The change has settled exactly where the scale was its last holder and no old pin is left (R100). -/
theorem State.removeCopy_settled {s : State} {n : Nat} {c : Change} (h : s.changeOf n = some c) (a : Nat) :
    (s.removeCopy a n).settled c = true ↔ (∀ b ∈ (s.article n).holders, b = a) ∧ s.oldPins c = [] := by
  rw [State.settled_iff (State.changeOf_number h), State.removeCopy_oldPins, State.removeCopy_article, if_pos rfl,
    setErase_eq_nil]

end

/-- The check of R78 on a RETIRING article without holders. -/
theorem Article.swept_retiring {r : Article} (h : r.state = .retiring) (hh : r.holders = []) :
    r.swept = if r.pins = [] ∧ r.refs = 0 then Article.powerOn else r := by
  simp [Article.swept, h, hh]

/-! ## PURGED (R91) -/

section
variable {s : State} {a n : Nat}

theorem State.exec_purged (h : s.hears a) (n : Option Nat) :
    exec (.purged a n) s = .next ((s.markTaken a).takePurged a n) := by
  show Host.Outcome.next (if isScale a then s.deliver a .scale false (fun t => t.takePurged a n) else s) = _
  rw [if_pos h.1, State.deliver_hears h]

theorem State.takePurged_purging {e : CopyEntry} (h : copyOf (s.copyMap a) n = some e) (he : e.purging = true) :
    s.takePurged a (some n) = (s.removeCopy a n).finish [n] := by
  simp [State.takePurged, h, he]

theorem State.takePurged_other (h : ∀ e, copyOf (s.copyMap a) n = some e → e.purging = false) :
    s.takePurged a (some n) = s := by
  cases hc : copyOf (s.copyMap a) n with
  | none => simp [State.takePurged, hc]
  | some e => simp [State.takePurged, hc, h e hc]

/-- The last copy of a change without old pins settles it, with its notice marked normal (R91, R100, R101). -/
theorem State.purgedCopy_settles {c : Change} (h : s.changeOf n = some c) (hh : ∀ b ∈ (s.article n).holders, b = a)
    (hp : s.oldPins c = []) :
    let t := (s.removeCopy a n).finish [n]
    t.changeOf n = none
    ∧ t.op = (s.raise .changeSettled [n, changeKindCode c.kind, c.oldRevision, (s.article n).revision, 0, 0, 1]).op
    ∧ t.article n = Article.swept { s.article n with state := settledState (s.article n).state, holders := [] } := by
  intro t
  have hchange : (s.removeCopy a n).changeOf n = some c := (s.removeCopy_changeOf a n n).trans h
  have hsettled := (State.removeCopy_settled h a).mpr ⟨hh, hp⟩
  have harticle : (s.removeCopy a n).article n = { s.article n with holders := [] } := by
    rw [State.removeCopy_article, if_pos rfl, setErase_eq_nil.mpr hh]
  obtain ⟨hclosed, hswept, -⟩ := State.finish_settles (List.mem_singleton_self n) hchange hsettled
  refine ⟨hclosed, ?_, by rw [hswept, harticle]⟩
  rw [State.finishOne_settles_op hchange hsettled, State.noteSettled, State.changeOf_number h, harticle]
  exact State.raise_op_congr (s.removeCopy_op a n) _ _

/-- With another holder or an old pin the change stays open (R100). -/
theorem State.purgedCopy_stays {c : Change} (h : s.changeOf n = some c)
    (hleft : (∃ b ∈ (s.article n).holders, b ≠ a) ∨ s.oldPins c ≠ []) :
    ((s.removeCopy a n).finish [n]).changeOf n = some c ∧ ((s.removeCopy a n).finish [n]).op = s.op := by
  have hchange : (s.removeCopy a n).changeOf n = some c := (s.removeCopy_changeOf a n n).trans h
  have hopen : (s.removeCopy a n).settled c = false := by
    rw [Bool.eq_false_iff, Ne, State.removeCopy_settled h a]
    rintro ⟨hh, hp⟩
    rcases hleft with ⟨b, hb, hne⟩ | hne
    · exact hne (hh b hb)
    · exact hne hp
  rw [State.finishOne_open hchange hopen]
  exact ⟨hchange, s.removeCopy_op a n⟩

end

/-- Settles O46. -/
theorem clearAndPurged : Obligations.ClearAndPurged := by
  refine ⟨fun s a h => ?_, fun s a h => ⟨State.exec_purged h none, fun n hn => ?_, fun n e he hpurging => ?_⟩⟩
  · obtain ⟨hanswered, htook⟩ := State.clear_answered h
    obtain ⟨hpin, hclerk⟩ := (s.markTaken a).takeClear_ctx a
    have hchannel := (s.markTaken a).takeClear_channel a
    rw [State.markTaken_verdictOf] at hchannel
    refine ⟨_, State.exec_clear h, hanswered, htook, hpin, hclerk, fun b hb => ?_, fun p hp => ⟨?_, ?_⟩, fun hp => ?_⟩
    · exact (hchannel b).trans (if_neg (fun hba => hb hba.1))
    · exact (hchannel a).trans (if_pos ⟨rfl, by rw [State.markTaken_channel, hp]; rfl⟩)
    · exact (State.takeClear_pinEnded (s := s.markTaken a) hp).congr rfl rfl (fun _ _ => rfl) rfl rfl
    · exact (State.markTaken_changes a (Changes.refl _ s) rfl).trans (State.takeClear_unpinned (s := s.markTaken a) hp)
  · exact (State.exec_purged h _).trans (congrArg _ (State.takePurged_other (s := s.markTaken a) hn))
  · have hexec := (State.exec_purged h _).trans
      (congrArg _ (State.takePurged_purging (s := s.markTaken a) he hpurging))
    have hlc : (((s.markTaken a).removeCopy a n).finish [n]).lc = (s.markTaken a).lc := State.finish_lc ..
    refine ⟨_, hexec, ?_, ?_, State.took_of_offers (.of_lc hlc), ?_, fun hc => ?_, fun c hc => ?_⟩
    · rw [State.finish_copyMap, State.removeCopy_copyMap, if_pos rfl]
      rfl
    · rw [State.finish_holders]
      exact (s.markTaken a).removeCopy_notHolder a n
    · exact State.finish_changes [n] (State.removeCopy_changes a n
        (State.markTaken_changes a (Changes.refl _ s) rfl) rfl) rfl
    · obtain ⟨hop, hclosed⟩ := State.finishOne_quiet (((s.markTaken a).removeCopy_changeOf a n n).trans hc)
      exact ⟨hop.trans ((s.markTaken a).removeCopy_op a n), hclosed⟩
    · refine ⟨fun hh hp => ?_, State.purgedCopy_stays (s := s.markTaken a) hc⟩
      obtain ⟨hclosed, hop, harticle⟩ := State.purgedCopy_settles (s := s.markTaken a) hc hh hp
      refine ⟨hclosed, hop, fun hstate => ?_, fun hstate => ?_⟩
      · have hlive : settledState ((s.markTaken a).article n).state = .live := congrArg settledState hstate
        rw [harticle, hlive]
        exact Article.swept_of_ne (by simp)
      · have hretiring : settledState ((s.markTaken a).article n).state = .retiring := congrArg settledState hstate
        rw [harticle, hretiring, Article.swept_retiring rfl rfl, show (s.markTaken a).article n = s.article n from rfl,
          ← hstate]

end Sys2Proof.Machine
end

section
/-! The settle timeout: old pins cancelled, the remaining holders detached, the notices of both, and the change closed by
force (R102). -/

namespace Sys2Proof.Machine

/-! ## Steps of a list of scales, seen from one of them -/

section
variable {s : State} {a : Nat}

/-- Steps that each leave scale a alone leave it alone together. -/
theorem State.SameScale.foldl {β : Type} {f : State → β → State} {l : List β} (s : State)
    (hf : ∀ v, ∀ x ∈ l, State.SameScale v (f v x) a) : s.SameScale (l.foldl f s) a := by
  induction l generalizing s with
  | nil => exact .refl s a
  | cons x rest ih => exact (hf s x (by simp)).trans (ih _ (fun v y hy => hf v y (by simp [hy])))

/-- What a step for scale a brings about, and no further step takes away, stands after the steps of a list that names a;
before the first of them scale a is as it was. -/
theorem State.foldl_acts {f : State → Nat → State} {P : State → Prop} {l : List Nat}
    (hskip : ∀ v b, b ≠ a → State.SameScale v (f v b) a) (hact : ∀ v, s.SameScale v a → P (f v a))
    (hkeep : ∀ v b, P v → P (f v b)) (ha : a ∈ l) : P (l.foldl f s) := by
  obtain ⟨before, behind, rfl, hout⟩ := List.eq_append_cons_of_mem ha
  have hbefore : s.SameScale (before.foldl f s) a :=
    .foldl s (fun v b hb => hskip v b (fun hba => hout (hba ▸ hb)))
  rw [List.foldl_append, List.foldl_cons]
  exact List.foldlRecOn (motive := P) behind f (hact _ hbefore) (fun v hv b _ => hkeep v b hv)

end

/-! ## What the parts of step 1 and step 2 leave of the other scales -/

section
variable {a b : Nat}

theorem State.unpin_same (s : State) (h : b ≠ a) : s.SameScale (s.unpin b) a :=
  ⟨State.station_of_lc (s.unpin_lc b) a, s.unpin_copyMap b a,
    (s.unpin_channel b a).trans (if_neg (fun hab => h hab.1.symm)), fun k => by rw [State.unpin_holders]⟩

theorem State.setChannel_same (s : State) (h : b ≠ a) (r : Channel) : s.SameScale (s.setChannel b r) a :=
  ⟨rfl, rfl, (State.channel_setChannel ..).trans (if_neg h.symm), fun _ => Iff.rfl⟩

theorem State.emptyMap_same (s : State) (h : b ≠ a) : s.SameScale (s.emptyMap b) a := by
  have hset : s.SameScale (s.setCopyMap b []) a :=
    ⟨rfl, (State.copyMap_setCopyMap ..).trans (if_neg h.symm), rfl, fun _ => Iff.rfl⟩
  refine hset.trans (.foldl _ (fun v n _ => ⟨rfl, rfl, rfl, fun k => ?_⟩))
  rw [State.leaveHolders_article]
  split
  · exact mem_setErase_of_ne h.symm _
  · rfl

theorem State.offerPurgeAll_same (s : State) (h : b ≠ a) : s.SameScale (s.offerPurgeAll b) a := by
  unfold State.offerPurgeAll
  split
  · exact (s.setStation_scaleOnly b _).others a h.symm
  · exact .refl s a

theorem State.moved_same (s : State) (h : b ≠ a) (x : StationState) : s.SameScale (s.moved b x) a :=
  ((s.setStation_scaleOnly b _).trans (State.setStation_scaleOnly _ b _)).others a h.symm

theorem State.evaluate_same (s : State) (h : b ≠ a) : s.SameScale (s.evaluate b) a := by
  have hchanges : Changes [.we, .lc] s (s.evaluate b) := State.evaluate_changes b (Changes.refl _ s) rfl
  exact ⟨(s.evaluate_offers b).only.1 a h.symm, State.copyMap_of_cd (hchanges.same .cd rfl) a,
    s.evaluate_channel_ne h.symm, fun k => by rw [State.evaluate_article]⟩

end

/-! ## Step 1: a pin cancelled (R44) -/

/-- Scale a holds no pin and is marked cancelled. -/
structure State.PinCancelled (v : State) (a : Nat) : Prop where
  pin : (v.channel a).ctx.pin = none
  cancelled : (v.channel a).ctx.cancelled = true

section
variable {s v : State} {a b : Nat}

theorem State.PinCancelled.of_same (h : v.PinCancelled a) (g : v.SameScale s a) : s.PinCancelled a :=
  ⟨by rw [g.channel]; exact h.pin, by rw [g.channel]; exact h.cancelled⟩

theorem State.cancelPin_changes' (s : State) (a : Nat) : Changes [.we, .art] s (s.cancelPin a) :=
  State.cancelPin_changes a (Changes.refl _ s) rfl

theorem State.cancelPin_same (s : State) (h : b ≠ a) : s.SameScale (s.cancelPin b) a :=
  (s.unpin_same h).trans (State.setChannel_same _ h _)

theorem State.cancelPin_cancelled (s : State) (a : Nat) : (s.cancelPin a).PinCancelled a := by
  have hchannel : (s.cancelPin a).channel a = _ := (State.channel_setChannel ..).trans (if_pos rfl)
  exact ⟨by rw [hchannel]; exact s.unpin_pin a, by rw [hchannel]⟩

theorem State.PinCancelled.cancelPin (h : v.PinCancelled a) (b : Nat) : (v.cancelPin b).PinCancelled a := by
  by_cases hb : b = a
  · rw [hb]
    exact v.cancelPin_cancelled a
  · exact h.of_same (v.cancelPin_same hb)

theorem State.PinCancelled.evaluate (h : v.PinCancelled a) (b : Nat) : (v.evaluate b).PinCancelled a := by
  by_cases hb : b = a
  · rw [hb]
    exact ⟨by rw [State.evaluate_channel, judged_ctx]; exact h.pin,
      by rw [State.evaluate_channel, judged_ctx]; exact h.cancelled⟩
  · exact h.of_same (v.evaluate_same hb)

end

/-! ## Step 2: a holder detached (R11, R92) -/

/-- The station with the detached flag set, before its move to DETACHED. -/
def State.flagSet (s : State) (a : Nat) : State := s.setStation a { s.station a with detachedFlag := true }

/-- The SETMODE and, out of NORMAL, the map emptied, before the pin is released. -/
def State.detaching (s : State) (a : Nat) : State :=
  if ((s.flagSet a).station a).state = .normal then ((s.flagSet a).moved a .detached).purged a
  else (s.flagSet a).moved a .detached

section
variable {s v : State} {a b : Nat}

theorem State.shiftService_eq (s : State) (a : Nat) (x : StationState) : s.shiftService a x =
    (if (s.station a).state = .normal then (s.moved a x).purged a else s.moved a x).unpin a := by
  unfold State.shiftService
  by_cases hn : (s.station a).state = .normal
  · simp only [hn, decide_true, if_true]
    rfl
  · simp only [hn, decide_false, if_false, Bool.false_eq_true]
    rfl

theorem State.forceDetach_eq (s : State) (a : Nat) : s.forceDetach a = (s.detaching a).unpin a :=
  (s.flagSet a).shiftService_eq a .detached

theorem State.flagSet_station (s : State) (a : Nat) :
    (s.flagSet a).station a = { s.station a with detachedFlag := true } :=
  (State.station_setStation ..).trans (if_pos rfl)

theorem State.detaching_shifted (s : State) (a : Nat) : (s.flagSet a).Shifted (s.detaching a) a .detached :=
  (s.flagSet a).shifted a rfl

theorem State.forceDetach_same (s : State) (h : b ≠ a) : s.SameScale (s.forceDetach b) a := by
  have hflag : s.SameScale (s.flagSet b) a := (s.setStation_scaleOnly b _).others a h.symm
  have hmoved := hflag.trans ((s.flagSet b).moved_same h .detached)
  have hdetaching : s.SameScale (s.detaching b) a := by
    unfold State.detaching
    split
    · exact (hmoved.trans (State.emptyMap_same _ h)).trans (State.offerPurgeAll_same _ h)
    · exact hmoved
  rw [State.forceDetach_eq]
  exact hdetaching.trans (State.unpin_same _ h)

theorem State.forceDetach_station (s : State) (a : Nat) : ((s.forceDetach a).station a).state = .detached
    ∧ ((s.forceDetach a).station a).detachedFlag = true := by
  obtain ⟨q, b, o, hst⟩ := (s.detaching_shifted a).station
  rw [State.forceDetach_eq, State.station_of_lc (State.unpin_lc ..), hst, State.flagSet_station]
  exact ⟨rfl, rfl⟩

/-- Out of NORMAL the map is emptied; elsewhere it stays as it is. -/
theorem State.forceDetach_copyMap (s : State) (a : Nat) :
    (s.forceDetach a).copyMap a = if (s.station a).state = .normal then [] else s.copyMap a := by
  have hshifted := s.detaching_shifted a
  have hstate : ((s.flagSet a).station a).state = (s.station a).state := by rw [State.flagSet_station]
  rw [State.forceDetach_eq, State.unpin_copyMap]
  split
  · rename_i hn
    exact (hshifted.emptied (hstate.trans hn)).1
  · rename_i hn
    exact hshifted.kept (hstate ▸ hn)

theorem State.forceDetach_pin (s : State) (a : Nat) : ((s.forceDetach a).channel a).ctx.pin = none := by
  rw [State.forceDetach_eq]
  exact State.unpin_pin _ a

theorem State.forceDetach_cancelled (s : State) (a : Nat) :
    ((s.forceDetach a).channel a).ctx.cancelled = (s.channel a).ctx.cancelled := by
  have hchannel : (s.detaching a).channel a = s.channel a :=
    State.channel_of_we ((s.detaching_shifted a).frame.same .we rfl) a
  rw [State.forceDetach_eq, State.unpin_channel, hchannel]
  split <;> rfl

theorem State.PinCancelled.forceDetach (h : v.PinCancelled a) (b : Nat) : (v.forceDetach b).PinCancelled a := by
  by_cases hb : b = a
  · rw [hb]
    exact ⟨v.forceDetach_pin a, (v.forceDetach_cancelled a).trans h.cancelled⟩
  · exact h.of_same (v.forceDetach_same hb)

/-- Scale a is DETACHED, its flag set and its pin gone, and its map empty where it was NORMAL in s. -/
structure State.ForcedDetached (s v : State) (a : Nat) : Prop where
  state : (v.station a).state = .detached
  flag : (v.station a).detachedFlag = true
  emptied : (s.station a).state = .normal → v.copyMap a = []
  pin : (v.channel a).ctx.pin = none

theorem State.ForcedDetached.of_same {t : State} (h : s.ForcedDetached v a) (g : v.SameScale t a) :
    s.ForcedDetached t a :=
  ⟨by rw [g.station]; exact h.state, by rw [g.station]; exact h.flag, fun hn => by rw [g.copies]; exact h.emptied hn,
    by rw [g.channel]; exact h.pin⟩

/-- A scale whose station is as in s is detached by its step. -/
theorem State.forceDetach_detached (h : v.station a = s.station a) : s.ForcedDetached (v.forceDetach a) a := by
  obtain ⟨hstate, hflag⟩ := v.forceDetach_station a
  exact ⟨hstate, hflag, fun hn => (v.forceDetach_copyMap a).trans (if_pos (by rw [h, hn])), v.forceDetach_pin a⟩

theorem State.ForcedDetached.forceDetach (h : s.ForcedDetached v a) (b : Nat) : s.ForcedDetached (v.forceDetach b) a := by
  by_cases hb : b = a
  · obtain ⟨hstate, hflag⟩ := v.forceDetach_station a
    rw [hb]
    refine ⟨hstate, hflag, fun hn => ?_, v.forceDetach_pin a⟩
    rw [State.forceDetach_copyMap, h.emptied hn, ite_self]
  · exact h.of_same (v.forceDetach_same hb)

theorem State.ForcedDetached.evaluate (h : s.ForcedDetached v a) (b : Nat) : s.ForcedDetached (v.evaluate b) a := by
  by_cases hb : b = a
  · have hchanges : Changes [.we, .lc] v (v.evaluate a) := State.evaluate_changes a (Changes.refl _ v) rfl
    obtain ⟨q, backlog, o, hst⟩ := (v.evaluate_offers a).keeps
    rw [hb]
    exact ⟨by rw [hst]; exact h.state, by rw [hst]; exact h.flag,
      fun hn => (State.copyMap_of_cd (hchanges.same .cd rfl) a).trans (h.emptied hn),
      by rw [State.evaluate_channel, judged_ctx]; exact h.pin⟩
  · exact h.of_same (v.evaluate_same hb)

end

/-! ## Steps 1 to 3 together -/

/-- The old pins of the change cancelled (R102 step 1). -/
def State.cancelOld (s : State) (c : Change) : State := (s.oldPins c).foldl State.cancelPin s

/-- The remaining holders detached, and every scale of either step evaluated once (R102 steps 2 and 3). -/
def State.scalesForced (s : State) (c : Change) : State :=
  let holders := (s.article c.article).holders
  (rising (s.oldPins c ++ holders)).foldl State.evaluate (holders.foldl State.forceDetach (s.cancelOld c))

section
variable (s : State) (c : Change)

theorem State.cancelOld_changes : Changes [.we, .art] s (s.cancelOld c) :=
  Changes.foldl _ (Changes.refl _ s) (fun v a => v.cancelPin_changes' a)

theorem State.scalesForced_changes : Changes [.lc, .we, .art, .cd] s (s.scalesForced c) := by
  have hcancel := (s.cancelOld_changes c).grow (m := [.lc, .we, .art, .cd]) (by simp)
  exact Changes.foldl _ (Changes.foldl _ hcancel (fun v a => State.forceDetach_changes a (Changes.refl _ v) rfl))
    (fun v a => State.evaluate_changes a (Changes.refl _ v) rfl)

/-- No holder is lost to the cancelled pins. -/
theorem State.cancelOld_holders (n : Nat) : ((s.cancelOld c).article n).holders = (s.article n).holders :=
  List.foldlRecOn (motive := fun v : State => (v.article n).holders = (s.article n).holders) _ _ rfl
    (fun v hv a _ => (v.unpin_holders a n).trans hv)

/-! Its own revision stays with an article through all three steps. -/

theorem State.foldl_revision {f : State → Nat → State} {n : Nat}
    (hf : ∀ v a, ((f v a).article n).revision = (v.article n).revision) (l : List Nat) (s : State) :
    ((l.foldl f s).article n).revision = (s.article n).revision :=
  List.foldlRecOn (motive := fun v : State => (v.article n).revision = (s.article n).revision) l f rfl
    (fun v hv a _ => (hf v a).trans hv)

theorem State.unpin_revision (a n : Nat) : ((s.unpin a).article n).revision = (s.article n).revision := by
  rw [State.unpin_article]
  split <;> rfl

theorem State.emptyMap_revision (a n : Nat) : ((s.emptyMap a).article n).revision = (s.article n).revision := by
  refine State.foldl_revision (fun v k => ?_) _ (s.setCopyMap a [])
  rw [State.leaveHolders_article]
  split <;> rfl

theorem State.detaching_revision (a n : Nat) : ((s.detaching a).article n).revision = (s.article n).revision := by
  have hmoved : ((s.flagSet a).moved a .detached).article n = s.article n :=
    State.article_of_art ((State.moved_changes ..).same .art rfl) n
  have hpurge (v : State) : Changes [.lc] (v.emptyMap a) (v.purged a) :=
    State.offerPurgeAll_changes a (Changes.refl _ _) rfl
  unfold State.detaching
  split
  · rw [State.article_of_art ((hpurge _).same .art rfl), State.emptyMap_revision, hmoved]
  · rw [hmoved]

theorem State.scalesForced_revision (n : Nat) : ((s.scalesForced c).article n).revision = (s.article n).revision := by
  have hcancel : ((s.cancelOld c).article n).revision = (s.article n).revision :=
    State.foldl_revision (f := State.cancelPin) (fun v a => v.unpin_revision a n) _ s
  have hdetach (v : State) (a : Nat) : ((v.forceDetach a).article n).revision = (v.article n).revision := by
    rw [State.forceDetach_eq, State.unpin_revision, State.detaching_revision]
  exact ((State.foldl_revision (fun v a => congrArg _ (v.evaluate_article a n)) _ _).trans
    (State.foldl_revision hdetach _ _)).trans hcancel

end

section
variable {s : State} {c : Change} {a : Nat}

theorem State.scalesForced_cancelled (ha : a ∈ s.oldPins c) : (s.scalesForced c).PinCancelled a := by
  have hcancel : (s.cancelOld c).PinCancelled a :=
    State.foldl_acts (P := fun v : State => v.PinCancelled a) (fun v b hb => v.cancelPin_same hb)
      (fun v _ => v.cancelPin_cancelled a) (fun v b hv => hv.cancelPin b) ha
  exact List.foldlRecOn (motive := fun v : State => v.PinCancelled a) _ _
    (List.foldlRecOn (motive := fun v : State => v.PinCancelled a) _ _ hcancel (fun v hv b _ => hv.forceDetach b))
    (fun v hv b _ => hv.evaluate b)

theorem State.scalesForced_detached (ha : a ∈ (s.article c.article).holders) :
    s.ForcedDetached (s.scalesForced c) a := by
  have hstation : (s.cancelOld c).station a = s.station a :=
    State.station_of_lc ((s.cancelOld_changes c).same .lc rfl) a
  have hdetach := State.foldl_acts (s := s.cancelOld c) (P := fun v : State => s.ForcedDetached v a)
    (fun v b hb => v.forceDetach_same hb) (fun v hv => State.forceDetach_detached (hv.station.trans hstation))
    (fun v b hv => hv.forceDetach b) ha
  exact List.foldlRecOn (motive := fun v : State => s.ForcedDetached v a) _ _ hdetach (fun v hv b _ => hv.evaluate b)

/-- A scale with neither an old pin nor a copy is left as it is. -/
theorem State.scalesForced_same (hp : a ∉ s.oldPins c) (hh : a ∉ (s.article c.article).holders) :
    s.SameScale (s.scalesForced c) a := by
  have hcancel : s.SameScale (s.cancelOld c) a :=
    .foldl s (fun v b hb => v.cancelPin_same (fun h => hp (h ▸ hb)))
  have hdetach := hcancel.trans (.foldl _ (fun v b hb => v.forceDetach_same (fun h => hh (h ▸ hb))))
  refine hdetach.trans (.foldl _ (fun v b hb => v.evaluate_same (fun h => ?_)))
  rcases List.mem_append.mp ((mem_rising b _).mp hb) with hb | hb
  · exact hp (h ▸ hb)
  · exact hh (h ▸ hb)

end

/-! ## Steps 4 to 7: the notices, the change closed, and the checks that follow -/

/-- Notices raised one after the other into a FIFO that has room for all stand there in their order (R187). -/
theorem places_placed (l : List (NoticeKind × List Nat)) {p : OfficePort} (ho : p.overflow = false)
    (hl : p.fifo.length + l.length ≤ 32) : (l.foldl (fun p x => p.place x.1 x.2) p).fifo =
      p.fifo ++ l.map (fun x => { kind := x.1, time := p.clock, subjects := x.2 }) := by
  induction l generalizing p with
  | nil => simp
  | cons x rest ih =>
    rw [List.length_cons] at hl
    obtain ⟨hfifo, hover⟩ := OfficePort.place_placed ho (by omega) x.1 x.2
    obtain ⟨-, hclock⟩ := p.place_clocks x.1 x.2
    rw [List.foldl_cons, ih hover (by rw [hfifo, List.length_append, List.length_singleton]; omega), hfifo, hclock]
    simp

/-- The notices of R102 steps 4 and 5: a STATION_DETACHED of each holder, and CHANGE_SETTLED marked forced. -/
def forcedNotices (n : Nat) (holders : List Nat) (settled : List Nat) : List (NoticeKind × List Nat) :=
  holders.map (fun a => (.stationDetached, [a, 2, n])) ++ [(.changeSettled, settled)]

theorem State.noteDetached_op (n : Nat) (holders : List Nat) (s : State) : (s.noteDetached n holders).op =
    (holders.map (fun a => (NoticeKind.stationDetached, [a, 2, n]))).foldl (fun p x => p.place x.1 x.2) s.op := by
  unfold State.noteDetached
  induction holders generalizing s with
  | nil => rfl
  | cons a rest ih => exact ih (s.raise .stationDetached [a, 2, n])

theorem State.noteDetached_changes' (n : Nat) (holders : List Nat) (s : State) :
    Changes [.op] s (s.noteDetached n holders) :=
  State.noteDetached_changes n holders (Changes.refl _ s) rfl

/-- What settle checks and checks of R78 leave: the scales and the clock as they are, changes at most closed, and no
notices but those of settled changes. -/
structure State.OnlySettles (s t : State) : Prop where
  lc : t.lc = s.lc
  we : t.we = s.we
  maps : t.cd.maps = s.cd.maps
  closed : ∀ n, s.changeOf n = none → t.changeOf n = none
  noted : Noted [.changeSettled] s t

section
variable {s t u : State}

theorem State.OnlySettles.refl (s : State) : s.OnlySettles s := ⟨rfl, rfl, rfl, fun _ => id, .of_op rfl⟩

theorem State.OnlySettles.trans (h : s.OnlySettles t) (g : t.OnlySettles u) : s.OnlySettles u :=
  ⟨g.lc.trans h.lc, g.we.trans h.we, g.maps.trans h.maps, fun n hn => g.closed n (h.closed n hn), h.noted.trans g.noted⟩

theorem State.OnlySettles.foldl {f : State → Nat → State} (hf : ∀ v k, State.OnlySettles v (f v k)) (l : List Nat)
    (s : State) : s.OnlySettles (l.foldl f s) :=
  List.foldlRecOn (motive := fun v : State => s.OnlySettles v) l f (.refl s) (fun v hv k _ => hv.trans (hf v k))

theorem State.settleCheck_onlySettles (s : State) (k : Nat) : s.OnlySettles (s.settleCheck k) := by
  have hchanges : Changes [.cd, .art, .op] s (s.settleCheck k) := State.settleCheck_changes k (Changes.refl _ s) rfl
  refine ⟨hchanges.same .lc rfl, hchanges.same .we rfl, s.settleCheck_maps k, fun n hn => ?_, s.settleCheck_noted k⟩
  by_cases hk : k = n
  · rw [hk, State.settleCheck_quiet hn, hn]
  · exact (s.settleCheck_kept hk).change.trans hn

theorem State.emptyCheck_onlySettles (s : State) (k : Nat) : s.OnlySettles (s.emptyCheck k) := by
  have hchanges : Changes [.art] s (s.emptyCheck k) := State.emptyCheck_changes k (Changes.refl _ s) rfl
  have hcd : (s.emptyCheck k).cd = s.cd := hchanges.same .cd rfl
  exact ⟨hchanges.same .lc rfl, hchanges.same .we rfl, congrArg _ hcd,
    fun n hn => (State.changeOf_of_cd hcd n).trans hn, .of_op (hchanges.same .op rfl)⟩

end

/-- The state after the notices of a change completed by force (R102 steps 4 and 5). -/
def State.forceNoted (s : State) (c : Change) : State :=
  let holders := (s.article c.article).holders
  ((s.scalesForced c).noteDetached c.article holders).noteSettled c holders.length (s.oldPins c).length 2

section
variable (s : State) (c : Change)

/-- The last steps of R102 close the change and make the checks. -/
theorem State.forceSettle_onlySettles : ((s.forceNoted c).closeChange c.article).OnlySettles (s.forceSettle c) := by
  have hforce : ∃ k l, s.forceSettle c =
      List.foldl State.emptyCheck (List.foldl State.settleCheck ((s.forceNoted c).closeChange c.article) k) l := by
    unfold State.forceSettle State.forceNoted State.scalesForced
    rw [← s.cancelOld_holders c]
    exact ⟨_, _, rfl⟩
  obtain ⟨k, l, hforce⟩ := hforce
  rw [hforce]
  exact (State.OnlySettles.foldl State.settleCheck_onlySettles k _).trans
    (.foldl State.emptyCheck_onlySettles l _)

theorem State.forceNoted_changes : Changes [.op] (s.scalesForced c) (s.forceNoted c) :=
  State.noteSettled_changes c _ _ _ (State.noteDetached_changes' ..) rfl

theorem State.forceNoted_op : (s.forceNoted c).op =
    (forcedNotices c.article (s.article c.article).holders [c.article, changeKindCode c.kind, c.oldRevision,
      (s.article c.article).revision, (s.article c.article).holders.length, (s.oldPins c).length, 2]).foldl
      (fun p x => p.place x.1 x.2) s.op := by
  have hop : (s.scalesForced c).op = s.op := (s.scalesForced_changes c).same .op rfl
  have hrevision (l : List Nat) : (((s.scalesForced c).noteDetached c.article l).article c.article).revision
      = (s.article c.article).revision := by
    rw [State.article_of_art ((State.noteDetached_changes' ..).same .art rfl), State.scalesForced_revision]
  unfold State.forceNoted State.noteSettled forcedNotices
  dsimp only
  rw [hrevision, List.foldl_append, ← hop, ← State.noteDetached_op]
  rfl

/-- The channel, the station record and the copy map of every scale are as steps 1 to 3 leave them. -/
theorem State.forceSettle_same (a : Nat) : (s.forceSettle c).channel a = (s.scalesForced c).channel a
    ∧ (s.forceSettle c).station a = (s.scalesForced c).station a
    ∧ (s.forceSettle c).copyMap a = (s.scalesForced c).copyMap a := by
  obtain ⟨hlc, hwe, hmaps, -, -⟩ := s.forceSettle_onlySettles c
  have hnoted := s.forceNoted_changes c
  have hcd : (s.forceNoted c).cd = (s.scalesForced c).cd := hnoted.same .cd rfl
  have hcopies : (s.forceSettle c).cd.maps = (s.scalesForced c).cd.maps := by
    rw [hmaps, ← hcd]
    rfl
  refine ⟨State.channel_of_we (hwe.trans (hnoted.same .we rfl)) a,
    State.station_of_lc (hlc.trans (hnoted.same .lc rfl)) a, ?_⟩
  unfold State.copyMap
  rw [hcopies]

theorem State.forceSettle_closed : (s.forceSettle c).changeOf c.article = none :=
  (s.forceSettle_onlySettles c).closed _ ((s.forceNoted c).closeChange_facts c.article).1

theorem State.forceSettle_noted : Noted [.changeSettled] (s.forceNoted c) (s.forceSettle c) :=
  (Noted.of_op ((s.forceNoted c).closeChange_facts c.article).2.2).trans (s.forceSettle_onlySettles c).noted

theorem State.forceSettle_now : (s.forceSettle c).op.now = s.op.now := by
  rw [(s.forceSettle_noted c).now, State.forceNoted_op]
  exact (places_facts _ s.op).1

/-- The notices of the forced settling are the next ones of a FIFO that has room for them (R102, R187). -/
theorem State.forceSettle_fifo (ho : s.op.overflow = false)
    (hl : s.op.fifo.length + (s.article c.article).holders.length < 32) :
    (s.forceSettle c).op.fifo.take (s.op.fifo.length + (s.article c.article).holders.length + 1) = s.op.fifo
      ++ (s.article c.article).holders.map
        (fun a => { kind := .stationDetached, time := s.op.clock, subjects := [a, 2, c.article] })
      ++ [{ kind := .changeSettled, time := s.op.clock
            subjects := [c.article, changeKindCode c.kind, c.oldRevision, (s.article c.article).revision,
              (s.article c.article).holders.length, (s.oldPins c).length, 2] }] := by
  obtain ⟨more, hfifo, -⟩ := (s.forceSettle_noted c).fifo
  rw [hfifo, State.forceNoted_op, places_placed _ ho (by simp [forcedNotices]; omega), List.take_left']
  · simp [forcedNotices]
  · simp [forcedNotices]
    omega

end

/-! ## The row of the deadline -/

theorem State.exec_settleTimeout {s : State} {n : Nat} {c : Change} (hr : s.op.resetLow = false)
    (hc : s.changeOf n = some c) : exec (.settleTimeout n) s = .next ((s.reach c.deadline).forceSettle c) := by
  have hdeadline : s.deadlineOf (.settle n) = some c.deadline := by simp [State.deadlineOf, hc]
  have hreached : (s.reach c.deadline).changeOf n = some c := hc
  show Host.Outcome.next (s.deadlineRow (.settle n)) = _
  unfold State.deadlineRow State.expire
  simp [hdeadline, hr, State.takeDeadline, hreached]

/-- Settles O47. -/
theorem settleTimeoutForces : Obligations.SettleTimeoutForces := by
  intro s n c hr hc
  obtain rfl : c.article = n := State.changeOf_number hc
  have hsame := (s.reach c.deadline).forceSettle_same c
  refine ⟨_, State.exec_settleTimeout hr hc, State.forceSettle_closed .., State.forceSettle_now .., fun a ha => ?_,
    fun a ha => ?_, fun a hp hh => ?_, State.forceSettle_fifo (s.reach c.deadline) c⟩
  all_goals obtain ⟨hchannel, hstation, hcopies⟩ := hsame a
  · obtain ⟨hpin, hcancelled⟩ := State.scalesForced_cancelled (s := s.reach c.deadline) ha
    rw [hchannel]
    exact ⟨hpin, hcancelled⟩
  · obtain ⟨hstate, hflag, hemptied, hpin⟩ := State.scalesForced_detached (s := s.reach c.deadline) ha
    rw [hchannel, hstation, hcopies]
    exact ⟨hstate, hflag, hemptied, hpin⟩
  · have hleft := State.scalesForced_same (s := s.reach c.deadline) hp hh
    rw [hchannel, hstation, hcopies]
    exact ⟨hleft.channel, hleft.station, hleft.copies⟩

end Sys2Proof.Machine
end

section
/-! The numbers of the ticket table, CLK.ENROL, the verdicts that allow an item, and the releases of a HELD ticket (R109,
R114, R117, R122, R126, R128). -/

namespace Sys2Proof.Machine

/-! ## Ticket numbers (R114, R117) -/

/-- Settles O10: the numbers of the table are one part of what every step keeps. -/
theorem ticketNumberInvariant : Obligations.TicketNumberInvariant :=
  fun _ _ hs hstep => (step_keeps hstep).numbers hs

/-! ## CLK.ENROL (R109) -/

section
variable {s : State} {c x : Nat} (hc : c < 256) (hx : x < 256)
include hc hx

theorem clkEnrol_fields : field (chars 1 c ++ chars 1 x) 1 1 = c ∧ field (chars 1 c ++ chars 1 x) 2 1 = x := by
  refine ⟨field_head_eq _ (by omega), ?_⟩
  rw [field_behind 1, field_chars_eq (by omega)]

/-- CLK.ENROL with a body of its length: the check of the ranges, then the record (R109). -/
theorem State.clkEnrol_eq : s.clkEnrol (chars 1 c ++ chars 1 x) =
    if c < 1 ∨ 24 < c ∨ 1 < x then (s, .refuse .badArg)
    else (s.setClerk c { s.clerk c with enrolled := true, supervisor := decide (x = 1) }, .ok []) := by
  obtain ⟨hclerk, hflag⟩ := clkEnrol_fields hc hx
  have hlength : (chars 1 c ++ chars 1 x).length = 2 := by simp
  unfold State.clkEnrol
  simp only [hclerk, hflag, hlength, ne_eq, not_true_eq_false, false_or]
  rfl

end

theorem State.exec_clkEnrol {s u : State} {body : List Byte} {r : Answer} (hr : s.op.resetLow = false)
    (hl : body.length = 2) (h : s.clkEnrol body = (u, r)) :
    exec (.clkEnrol body) s = .next (u.responded 48 r.result r.clamped r.body 5) := by
  show Host.Outcome.next (s.transact 48 body (fun t => t.clkEnrol body)) = _
  rw [State.transact_responds hr (by omega) h, hl]

/-- Settles O31. -/
theorem clkEnrolStores : Obligations.ClkEnrolStores := by
  intro s c x hr hc hx body
  have hrun := State.clkEnrol_eq (s := s) hc hx
  have hl : body.length = 2 := by simp [body]
  refine ⟨fun h => ?_, fun h1 h2 h3 => ?_⟩
  · rw [if_pos h] at hrun
    exact State.exec_clkEnrol hr hl hrun
  · rw [if_neg (by omega)] at hrun
    exact State.exec_clkEnrol hr hl hrun

/-! ## Verdicts that allow an item (R122) -/

/-- The code that the price state of a pinned verdict gives; none where it allows an item. -/
def priceRefused : PriceState → Option ReplyCode
  | .priced => none
  | .underMin => some .underMin
  | .priceOver => some .priceOver
  | .noPrice => some .noArticle
  | .cancelled => some .noArticle

theorem priceRefused_cases (x : PriceState) : x = .priced ∧ priceRefused x = none
    ∨ x = .underMin ∧ priceRefused x = some .underMin ∨ x = .priceOver ∧ priceRefused x = some .priceOver
    ∨ (x = .noPrice ∨ x = .cancelled) ∧ priceRefused x = some .noArticle := by
  cases x <;> simp [priceRefused]

section
variable {v : Verdict}

theorem verdictRefused_unpinned (h : v.pin = none) : verdictRefused v = some .noArticle := by
  unfold verdictRefused
  rw [h]

variable {p : PinView} (hp : v.pin = some p)
include hp

/-- The price state alone decides for an article that is not sold by weight. -/
theorem verdictRefused_notWeighed (hm : p.mode ≠ .byWeight) : verdictRefused v = priceRefused v.priceState := by
  cases h : p.mode with
  | byWeight => exact absurd h hm
  | byCount | fixed =>
    simp only [verdictRefused, hp, h]
    rfl

/-- For an article sold by weight the weight state decides before the price state. -/
theorem verdictRefused_weighed (hm : p.mode = .byWeight) : verdictRefused v =
    match v.weight with
    | .filling | .fault | .motion => some .motion
    | .overload => some .overload
    | .underload => some .underMin
    | .stable => priceRefused v.priceState := by
  unfold verdictRefused
  rw [hp]
  simp only [hm]
  cases v.weight <;> rfl

end

/-- Settles O49. -/
theorem verdictsAllowItems : Obligations.VerdictsAllowItems := by
  intro v byPrice
  have hprice : verdictRefused v = priceRefused v.priceState → byPrice := fun h => by
    have := priceRefused_cases v.priceState
    rwa [← h] at this
  refine ⟨verdictRefused_unpinned, fun p hp => ⟨fun hm => hprice (verdictRefused_notWeighed hp hm), fun hm => ?_⟩⟩
  have hweighed := verdictRefused_weighed hp hm
  refine ⟨fun h => ?_, fun h => ?_, fun h => ?_, fun h => hprice ?_⟩
  · rcases h with h | h | h <;> rw [hweighed, h]
  all_goals rw [hweighed, h]

/-! ## RELEASE and TKT.RELEASE (R126, R128) -/

theorem State.markTaken_mans {s : State} {a c : Nat} (h : s.mans a c) : (s.markTaken a).mans a c :=
  ⟨h.1, by rw [State.markTaken_state]; exact h.2⟩

/-- A HELD ticket returned to OPEN stands in the place of the one with its number. -/
theorem State.releaseTicket_eq {s : State} {n : Nat} {k : Ticket} (hk : s.ticketOf n = some k) : s.releaseTicket k =
    s.setTickets (s.sc.tickets.map (fun x => if x.number = n then
      { k with state := .opened (moment s.op.now s.idleTimeout), lastActivity := s.op.now } else x)) := by
  obtain ⟨-, rfl⟩ := State.ticketOf_mem hk
  rfl

theorem State.tktRelease_none {s : State} {n : Nat} (h1 : 1 ≤ n) (h2 : n ≤ 999) (hk : s.ticketOf n = none) :
    s.tktRelease (chars 2 n) = (s, .refuse .notFound) := by
  unfold State.tktRelease
  dsimp only
  rw [field_chars_eq (by omega), if_neg (by rw [chars_length]; omega), hk]

theorem State.tktRelease_ticket {s : State} {n : Nat} {k : Ticket} (h1 : 1 ≤ n) (h2 : n ≤ 999)
    (hk : s.ticketOf n = some k) : s.tktRelease (chars 2 n) =
      if k.state = .held then (s.releaseTicket k, .ok []) else (s, .refuse .wrongState) := by
  unfold State.tktRelease
  dsimp only
  rw [field_chars_eq (by omega), if_neg (by rw [chars_length]; omega), hk]

theorem State.exec_tktRelease {s u : State} {n : Nat} {r : Answer} (hr : s.op.resetLow = false)
    (h : s.tktRelease (chars 2 n) = (u, r)) :
    exec (.tktRelease (chars 2 n)) s = .next (u.responded 66 r.result r.clamped r.body 5) := by
  show Host.Outcome.next (s.transact 66 (chars 2 n) (fun t => t.tktRelease (chars 2 n))) = _
  rw [State.transact_responds hr (by simp) h, chars_length]

section
variable {s : State} {a c n : Nat}

theorem State.exec_release (h : s.takes a) (n : Nat) :
    exec (.release a n) s = .next ((s.markTaken a).takeRelease a n) :=
  congrArg _ (State.deliverAction_takes h _)

theorem State.takeRelease_noClerk (h : s.clerkAt a = none) : s.takeRelease a n = s.reply a 17 .noClerk [] := by
  unfold State.takeRelease
  rw [h]

theorem State.takeRelease_proof (hc : s.clerkAt a = some c) (hp : (s.station a).state = .proof) :
    s.takeRelease a n = s.reply a 17 .proofOnly [] := by
  simp [State.takeRelease, hc, hp]

theorem State.takeRelease_notSupervisor (h : s.mans a c) (hc : (s.clerk c).supervisor = false) :
    s.takeRelease a n = s.reply a 17 .notSupervisor [] := by
  simp [State.takeRelease, h.1, h.2, hc]

theorem State.takeRelease_noTicket (h : s.mans a c) (hc : (s.clerk c).supervisor = true) (hk : s.ticketOf n = none) :
    s.takeRelease a n = s.reply a 17 .wrongState [] := by
  simp [State.takeRelease, h.1, h.2, hc, hk]

theorem State.takeRelease_ticket {k : Ticket} (h : s.mans a c) (hc : (s.clerk c).supervisor = true)
    (hk : s.ticketOf n = some k) : s.takeRelease a n =
      if k.state = .held then (s.releaseTicket k).reply a 17 .ok (chars 2 n) else s.reply a 17 .wrongState [] := by
  simp [State.takeRelease, h.1, h.2, hc, hk]

/-- What the REPLY of a message leaves where, after the message was taken, nothing but blocks other than the Line
Controller has changed (R14, R17, R22). -/
theorem State.reply_after {l : List Block} {u : State} (h : s.takes a) (hu : Changes l (s.markTaken a) u)
    (hl : Block.lc ∉ l) (action : Nat) (code : ReplyCode) (data : List Byte) :
    (u.reply a action code data).answered a action code data ∧ s.took (u.reply a action code data) a := by
  obtain ⟨hs, hroom⟩ := State.takes_room h
  have hoffers := (Offers.refl a (s.markTaken a)).then_changes hu hl
  exact ⟨hoffers.answered hs (by omega), State.took_of_offers (hoffers.trans (State.reply_offers ..))⟩

end

/-- Settles O34. -/
theorem ticketsReleased : Obligations.TicketsReleased := by
  refine ⟨fun s n k h1 h2 hk => ?_, fun s n hr h1 h2 hk => State.exec_tktRelease hr (State.tktRelease_none h1 h2 hk),
    fun s a n h => ⟨fun hc => ?_, fun c hc => ⟨fun hp => ?_, fun hp hs => ?_, fun hp hs hk => ?_⟩⟩⟩
  · intro opened
    have hopened := State.releaseTicket_eq hk
    have hrun := State.tktRelease_ticket h1 h2 hk
    refine ⟨fun hr => ⟨fun hheld => ?_, fun hheld => ?_⟩, fun a c h hm => ?_⟩
    · rw [if_pos hheld, hopened] at hrun
      exact State.exec_tktRelease hr hrun
    · rw [if_neg hheld] at hrun
      exact State.exec_tktRelease hr hrun
    · have hmans := State.markTaken_mans hm
      refine ⟨fun hs => ?_, fun hs hheld => ?_, fun hs hheld => ?_⟩
      · exact (State.exec_release h n).trans (congrArg _ (State.takeRelease_notSupervisor hmans hs))
      · have htake := State.takeRelease_ticket hmans hs hk
        rw [if_neg hheld] at htake
        exact (State.exec_release h n).trans (congrArg _ htake)
      · have htake := State.takeRelease_ticket hmans hs hk
        rw [if_pos hheld, State.releaseTicket_eq (s := s.markTaken a) hk] at htake
        have hreplied : Changes [.sc, .lc] s _ := State.takeRelease_changes a n (State.markTaken_changes a (Changes.refl _ s) rfl) rfl
        rw [htake] at hreplied
        obtain ⟨hanswered, htook⟩ := State.reply_after h
          (State.setTickets_changes _ (Changes.refl [.sc] (s.markTaken a)) rfl) (by decide) 17 .ok (chars 2 n)
        refine ⟨_, (State.exec_release h n).trans (congrArg _ htake), hanswered, htook, ?_, hreplied⟩
        exact (State.reply_changes (m := [.lc]) a 17 .ok _ (Changes.refl _ _) rfl).same .sc rfl
  · exact (State.exec_release h n).trans (congrArg _ (State.takeRelease_noClerk (s := s.markTaken a) hc))
  · exact (State.exec_release h n).trans (congrArg _ (State.takeRelease_proof (s := s.markTaken a) hc
      (by rw [State.markTaken_state]; exact hp)))
  · exact (State.exec_release h n).trans (congrArg _ (State.takeRelease_notSupervisor (State.markTaken_mans ⟨hc, hp⟩) hs))
  · exact (State.exec_release h n).trans (congrArg _ (State.takeRelease_noTicket (State.markTaken_mans ⟨hc, hp⟩) hs hk))

end Sys2Proof.Machine
end

section
/-! NEW and SWITCH: their checks in order, the record that NEW fills, and the ticket that becomes active (R117 to R120,
R126). -/

namespace Sys2Proof.Machine

/-! ## The ticket table after an opening and a replacement -/

section
variable {s : State}

theorem State.openTicket_ticketOf {k : Ticket} (h : s.ticketOf k.number = none) (m : Nat) :
    (s.openTicket k).ticketOf m = if m = k.number then some k else s.ticketOf m := by
  by_cases hm : m = k.number
  · subst hm
    rw [if_pos rfl]
    refine find?_insertTicket_self k s.sc.tickets (fun x hx => ?_)
    simpa using List.find?_eq_none.mp h x hx
  · rw [if_neg hm]
    exact find?_insertTicket k s.sc.tickets m hm

theorem State.setActive_ticketOf (s : State) (c : Nat) (x : Option Nat) (m : Nat) :
    (s.setActive c x).ticketOf m = s.ticketOf m := by
  unfold State.ticketOf
  rw [(s.setActive_tickets c x).1]

/-- The state after a ticket has filled a free record and become its clerk's active ticket (R117, R118, R120). -/
def State.opensAs (s : State) (c : Nat) (k : Ticket) : State := (s.openTicket k).setActive c (some k.number)

theorem State.opensAs_changes (s : State) (c : Nat) (k : Ticket) : Changes [.sc, .we] s (s.opensAs c k) :=
  State.setActive_changes c _ (State.openTicket_changes k (Changes.refl _ s) rfl) rfl

theorem State.opensAs_ticketOf {k : Ticket} (h : s.ticketOf k.number = none) (c m : Nat) :
    (s.opensAs c k).ticketOf m = if m = k.number then some k else s.ticketOf m :=
  (State.setActive_ticketOf ..).trans (State.openTicket_ticketOf h m)

theorem State.opensAs_lastTicket (s : State) (c : Nat) (k : Ticket) : (s.opensAs c k).sc.lastTicket = k.number :=
  (State.setActive_tickets ..).2.1

theorem State.opensAs_clerk (s : State) (c d : Nat) (k : Ticket) : (s.opensAs c k).clerk d =
    if d = c then { s.clerk c with active := some k.number } else s.clerk d :=
  State.setActive_clerk ..

theorem State.opensAs_activeTicket {c a : Nat} (k : Ticket) (h : (s.clerk c).scale = some a) :
    ((s.opensAs c k).channel a).ctx.activeTicket = some k.number := by
  have hscale : ((s.openTicket k).clerk c).scale = some a := h
  unfold State.opensAs
  rw [State.setActive_channel, if_pos hscale]

theorem isPrinting_iff {k : Ticket} : isPrinting k = true ↔ ∃ job, k.state = .printing job := by
  unfold isPrinting
  cases k.state <;> simp

theorem isParked_iff {k : Ticket} : isParked k = true ↔ ∃ m, k.state = .parked m := by
  unfold isParked
  cases k.state <;> simp

end

/-! ## NEW (R118) -/

section
variable {s : State} {a c : Nat}

theorem State.exec_newTicket (h : s.takes a) : exec (.newTicket a) s = .next ((s.markTaken a).takeNew a) :=
  congrArg _ (State.deliverAction_takes h _)

theorem State.openingRefused_noClerk (h : s.clerkAt a = none) : s.openingRefused a = some .noClerk := by
  unfold State.openingRefused
  rw [h]

theorem State.openingRefused_proof (hc : s.clerkAt a = some c) (hp : (s.station a).state = .proof) :
    s.openingRefused a = some .proofOnly := by
  simp [State.openingRefused, hc, hp]

/-- The limit before the room of the table (R118 checks 3 and 4). -/
theorem State.openingRefused_manned (h : s.mans a c) : s.openingRefused a =
    if s.atLimit c then some .limit else if s.tableFull then some .tableFull else none := by
  simp [State.openingRefused, h.1, h.2]

theorem State.takeNew_refused {code : ReplyCode} (h : s.openingRefused a = some code) :
    s.takeNew a = s.reply a 10 code [] := by
  unfold State.takeNew
  rw [h]

theorem State.takeNew_opens (hr : s.openingRefused a = none) (hc : s.clerkAt a = some c) :
    s.takeNew a = (s.opensAs c (s.counterTicket c none)).reply a 10 .ok (chars 2 (s.counterTicket c none).number) := by
  unfold State.takeNew
  rw [hr, hc]
  rfl

end

/-! ## SWITCH (R119) -/

section
variable {s : State} {a c n : Nat}

theorem State.exec_switch (h : s.takes a) (n : Nat) : exec (.switch a n) s = .next ((s.markTaken a).takeSwitch a n) :=
  congrArg _ (State.deliverAction_takes h _)

theorem State.takeSwitch_noClerk (h : s.clerkAt a = none) (n : Nat) : s.takeSwitch a n = s.reply a 11 .noClerk [] := by
  unfold State.takeSwitch
  rw [h]

theorem State.takeSwitch_proof (hc : s.clerkAt a = some c) (hp : (s.station a).state = .proof) (n : Nat) :
    s.takeSwitch a n = s.reply a 11 .proofOnly [] := by
  simp [State.takeSwitch, hc, hp]

section
variable (h : s.mans a c)
include h

theorem State.takeSwitch_noTicket (hk : s.ticketOf n = none) : s.takeSwitch a n = s.reply a 11 .wrongState [] := by
  simp [State.takeSwitch, h.1, h.2, State.switchTo, hk]

variable {k : Ticket} (hk : s.ticketOf n = some k)
include hk

theorem State.takeSwitch_otherOwner (ho : k.clerk ≠ c ∨ ∃ job, k.state = .printing job) :
    s.takeSwitch a n = s.reply a 11 .wrongState [] := by
  have hrefused : k.clerk ≠ c ∨ isPrinting k = true := ho.imp_right isPrinting_iff.mpr
  simp [State.takeSwitch, h.1, h.2, State.switchTo, hk, if_pos hrefused]

variable (hown : k.clerk = c)
include hown

theorem State.takeSwitch_limit (hp : ∃ m, k.state = .parked m) (hl : s.atLimit c = true) :
    s.takeSwitch a n = s.reply a 11 .limit [] := by
  have hprinting : isPrinting k = false := by
    obtain ⟨m, hm⟩ := hp
    simp [isPrinting, hm]
  simp [State.takeSwitch, h.1, h.2, State.switchTo, hk, hown, hprinting, isParked_iff.mpr hp, hl]

/-- A SWITCH that passes its checks. -/
theorem State.takeSwitch_switches (hj : ∀ job, k.state ≠ .printing job)
    (hl : (∃ m, k.state = .parked m) → s.atLimit c = false) :
    s.takeSwitch a n = ((s.putTicket (s.switched k)).setActive c (some n)).reply a 11 .ok
      (chars 2 n ++ chars 1 (ticketStateCode (s.switched k).state) ++ chars 4 (s.switched k).total) := by
  have hprinting : isPrinting k = false := by
    rw [Bool.eq_false_iff, Ne, isPrinting_iff]
    exact fun ⟨job, hjob⟩ => hj job hjob
  have hlimit : ¬ (isParked k = true ∧ s.atLimit c = true) := fun ⟨hp, hat⟩ => by
    rw [hl (isParked_iff.mp hp)] at hat
    cases hat
  simp [State.takeSwitch, h.1, h.2, State.switchTo, hk, hown, hprinting, if_neg hlimit]

end

theorem State.switched_number (s : State) (k : Ticket) : (s.switched k).number = k.number := by
  unfold State.switched
  cases k.state <;> rfl

theorem State.switched_total (s : State) (k : Ticket) : (s.switched k).total = k.total := by
  unfold State.switched
  cases k.state <;> rfl

/-- A HELD or PRINT_WAIT ticket becomes active as it stands (the table of R119). -/
theorem State.switched_waiting {k : Ticket} (h : k.state = .held ∨ k.state = .printWait) : s.switched k = k := by
  unfold State.switched
  rcases h with h | h <;> rw [h]

/-- An OPEN or PARKED ticket is renewed (the table of R119, R126). -/
theorem State.switched_running {k : Ticket} (h : ∃ m, k.state = .opened m ∨ k.state = .parked m) :
    s.switched k = s.renewed k := by
  unfold State.switched
  obtain ⟨m, h | h⟩ := h <;> rw [h]

/-- The table after a SWITCH: the ticket found under its number, every other one as it was. -/
theorem State.switched_ticketOf {k : Ticket} (hk : s.ticketOf n = some k) (c m : Nat) :
    ((s.putTicket (s.switched k)).setActive c (some n)).ticketOf m =
      if m = n then some (s.switched k) else s.ticketOf m := by
  obtain ⟨-, rfl⟩ := State.ticketOf_mem hk
  have hput := s.putTicket_ticketOf (s.switched k) m (by rw [State.switched_number, hk]; rfl)
  rw [State.switched_number] at hput
  rw [State.setActive_ticketOf, hput]

end

/-! ## The two actions as messages of their scale -/

theorem State.markTaken_counterTicket (s : State) (a c : Nat) (q : Option Nat) :
    (s.markTaken a).counterTicket c q = s.counterTicket c q := rfl

section
variable {s : State} {a c : Nat} (h : s.takes a)
include h

/-- The refusals that NEW and SWITCH share (R118 and R119 checks 1 and 2). -/
theorem State.openings_noClerk (hc : s.clerkAt a = none) :
    s.turnsAway (.newTicket a) a 10 .noClerk ∧ ∀ n, s.turnsAway (.switch a n) a 11 .noClerk := by
  refine ⟨?_, fun n => ?_⟩
  · exact (State.exec_newTicket h).trans
      (congrArg _ (State.takeNew_refused (State.openingRefused_noClerk (s := s.markTaken a) hc)))
  · exact (State.exec_switch h n).trans (congrArg _ (State.takeSwitch_noClerk (s := s.markTaken a) hc n))

theorem State.openings_proofOnly (hc : s.clerkAt a = some c) (hp : (s.station a).state = .proof) :
    s.turnsAway (.newTicket a) a 10 .proofOnly ∧ ∀ n, s.turnsAway (.switch a n) a 11 .proofOnly := by
  have hproof : ((s.markTaken a).station a).state = .proof := by rw [State.markTaken_state, hp]
  refine ⟨?_, fun n => ?_⟩
  · exact (State.exec_newTicket h).trans
      (congrArg _ (State.takeNew_refused (State.openingRefused_proof (s := s.markTaken a) hc hproof)))
  · exact (State.exec_switch h n).trans (congrArg _ (State.takeSwitch_proof (s := s.markTaken a) hc hproof n))

variable (hm : s.mans a c)
include hm

theorem State.newTicket_refused {code : ReplyCode}
    (hr : (if s.atLimit c then some .limit else if s.tableFull then some .tableFull else none) = some code) :
    s.turnsAway (.newTicket a) a 10 code := by
  have hrefused := (State.openingRefused_manned (State.markTaken_mans hm)).trans hr
  exact (State.exec_newTicket h).trans (congrArg _ (State.takeNew_refused hrefused))

/-- NEW with a clerk below the limit and a free record (R117, R118). -/
theorem State.newTicket_opens (hl : s.atLimit c = false) (hn : s.sc.tickets.length < 64) {k : Ticket}
    (hk : k = s.counterTicket c none) (hfree : s.ticketOf k.number = none) :
    ∃ t, exec (.newTicket a) s = .next t ∧ t.answered a 10 .ok (chars 2 k.number) ∧ s.took t a
      ∧ (∀ m, t.ticketOf m = if m = k.number then some k else s.ticketOf m) ∧ t.sc.lastTicket = k.number
      ∧ (∀ d, t.clerk d = if d = c then { s.clerk c with active := some k.number } else s.clerk d)
      ∧ ((s.clerk c).scale = some a → (t.channel a).ctx.activeTicket = some k.number) := by
  have hpasses : (s.markTaken a).openingRefused a = none := by
    have hlimit : (s.markTaken a).atLimit c = false := hl
    have hfull : (s.markTaken a).tableFull = false := State.tableFull_false.mpr hn
    simp [State.openingRefused_manned (State.markTaken_mans hm), hlimit, hfull]
  have hexec := (State.exec_newTicket h).trans (congrArg _ (State.takeNew_opens hpasses hm.1))
  rw [State.markTaken_counterTicket, ← hk] at hexec
  have hopened := (s.markTaken a).opensAs_changes c k
  have hreply : Changes [.lc] ((s.markTaken a).opensAs c k) _ :=
    State.reply_changes a 10 .ok (chars 2 k.number) (Changes.refl _ _) rfl
  obtain ⟨hanswered, htook⟩ := State.reply_after h hopened (by decide) 10 .ok (chars 2 k.number)
  have hsc := hreply.same .sc rfl
  refine ⟨_, hexec, hanswered, htook, fun m => ?_, ?_, fun d => ?_, fun hscale => ?_⟩
  · exact (State.ticketOf_of_sc hsc m).trans (State.opensAs_ticketOf (s := s.markTaken a) hfree c m)
  · exact (congrArg (·.lastTicket) hsc).trans (State.opensAs_lastTicket ..)
  · exact (State.clerk_of_sc hsc d).trans (State.opensAs_clerk ..)
  · rw [State.channel_of_we (hreply.same .we rfl)]
    exact State.opensAs_activeTicket (s := s.markTaken a) k hscale

/-- A SWITCH to one of the clerk's own tickets that is not PRINTING, and below the limit where it is PARKED (R119). -/
theorem State.switch_switches {n : Nat} {k : Ticket} (hk : s.ticketOf n = some k) (hown : k.clerk = c)
    (hj : ∀ job, k.state ≠ .printing job) (hl : (∃ m, k.state = .parked m) → s.atLimit c = false) :
    ∃ t, exec (.switch a n) s = .next t ∧ s.took t a
      ∧ (∀ m, t.ticketOf m = if m = n then some (s.switched k) else s.ticketOf m)
      ∧ t.answered a 11 .ok (chars 2 n ++ chars 1 (ticketStateCode (s.switched k).state) ++ chars 4 k.total)
      ∧ t.sc.lastTicket = s.sc.lastTicket ∧ t.clerk c = { s.clerk c with active := some n } := by
  have htake := State.takeSwitch_switches (State.markTaken_mans hm) (k := k) (n := n) hk hown hj hl
  have hsame : (s.markTaken a).switched k = s.switched k := rfl
  rw [hsame, State.switched_total] at htake
  have hexec := (State.exec_switch h n).trans (congrArg _ htake)
  obtain ⟨u, hu⟩ : ∃ u, u = ((s.markTaken a).putTicket (s.switched k)).setActive c (some n) := ⟨_, rfl⟩
  rw [← hu] at hexec
  have hchanges : Changes [.sc, .we] (s.markTaken a) u := by
    rw [hu]
    exact State.setActive_changes c _ (State.putTicket_changes _ (Changes.refl _ _) rfl) rfl
  obtain ⟨hanswered, htook⟩ := State.reply_after h hchanges (by decide) 11 .ok
    (chars 2 n ++ chars 1 (ticketStateCode (s.switched k).state) ++ chars 4 k.total)
  have hsc := (State.reply_changes (m := [.lc]) a 11 .ok
    (chars 2 n ++ chars 1 (ticketStateCode (s.switched k).state) ++ chars 4 k.total) (Changes.refl _ u) rfl).same .sc rfl
  refine ⟨_, hexec, htook, fun m => ?_, hanswered, ?_, ?_⟩
  · rw [State.ticketOf_of_sc hsc, hu]
    exact State.switched_ticketOf (s := s.markTaken a) hk c m
  · rw [hsc, hu]
    exact (State.setActive_tickets ..).2.1
  · rw [State.clerk_of_sc hsc, hu, State.setActive_clerk, if_pos rfl]
    rfl

end

/-- Settles O48. -/
theorem ticketsOpenAndSwitch : Obligations.TicketsOpenAndSwitch := by
  refine fun s a h => ⟨State.openings_noClerk h, fun c => State.openings_proofOnly h, fun c hm => ?_⟩
  intro owned limit
  have hmans := State.markTaken_mans hm
  have hlimit : limit ≤ owned ↔ s.atLimit c = true := (s.atLimit_iff c).symm
  have hbelow : owned < limit → s.atLimit c = false := fun hl => by
    rw [Bool.eq_false_iff, Ne, ← hlimit]
    omega
  refine ⟨fun hl => State.newTicket_refused h hm (if_pos (hlimit.mp hl)), fun hl hn => ?_, fun hl hn => ?_, fun n => ⟨fun hk => ?_,
    fun k hk => ⟨fun ho => ?_, fun hown hp hl => ?_, fun hown hj hl => ?_⟩⟩⟩
  · have hfull : s.tableFull = true := by simpa [State.tableFull] using hn
    exact State.newTicket_refused h hm (by rw [hbelow hl, hfull]; rfl)
  · obtain ⟨i, hi, hfirst, hnumber, hfree⟩ := s.freshTicketNumber_first hn
    obtain ⟨k, hk⟩ : ∃ k, k = s.counterTicket c none := ⟨_, rfl⟩
    have hkn : k.number = (s.sc.lastTicket + i) % 999 + 1 := by rw [hk, State.counterTicket_number, hnumber]
    obtain ⟨t, hexec, hanswered, htook, htickets, hlast, hclerks, hactive⟩ :=
      State.newTicket_opens h hm (hbelow hl) hn hk (hkn ▸ hfree)
    rw [hkn] at hanswered htickets hlast hclerks hactive
    refine ⟨t, i, hi, hfirst, hexec, hfree, hanswered, htook, ?_, fun m hm => ?_, hlast, ?_, fun d hd => ?_, hactive⟩
    · rw [htickets, if_pos rfl, ← hnumber, hk]
      rfl
    · rw [htickets, if_neg hm]
    · rw [hclerks, if_pos rfl]
    · rw [hclerks, if_neg hd]
  · exact (State.exec_switch h n).trans (congrArg _ (State.takeSwitch_noTicket hmans hk))
  · exact (State.exec_switch h n).trans (congrArg _ (State.takeSwitch_otherOwner hmans hk ho))
  · exact (State.exec_switch h n).trans (congrArg _ (State.takeSwitch_limit hmans hk hown hp (hlimit.mp hl)))
  · obtain ⟨t, hexec, htook, htickets, hanswered, hlast, hclerk⟩ :=
      State.switch_switches h hm hk hown hj (fun hp => hbelow (hl hp))
    refine ⟨t, s.switched k, hexec, htook, by rw [htickets, if_pos rfl], hanswered, fun m hm => by rw [htickets, if_neg hm],
      hlast, hclerk, State.switched_waiting, State.switched_running⟩

end Sys2Proof.Machine
end

section
/-! VOID_ITEM: its checks in order, the ticket that an accepted void leaves, and the match counts and WATCH_MATCH notices
(R124, R166 to R170). -/

namespace Sys2Proof.Machine

/-! ## The watch's part of an addition or a void (R169, R170) -/

/-- A message's taking and its offers, before a change of other blocks than the Line Controller. -/
theorem State.took_of_changes {s t u : State} {a : Nat} (h : s.took t a) {l : List Block} (g : Changes l t u)
    (hl : Block.lc ∉ l) : s.took u a := by
  have hlc : u.lc = t.lc := g.frame .lc hl
  obtain ⟨honly, q, b, o, hst⟩ := h
  exact ⟨honly.trans (.of_lc hlc), q, b, o, (State.station_of_lc hlc a).trans hst⟩

theorem State.noteMatches_changes' (s : State) (r : WatchResult) (ev : WatchEvent)
    (outcome scale clerk ticket article price position : Nat) :
    Changes [.op] s (s.noteMatches r ev outcome scale clerk ticket article price position) :=
  State.noteMatches_changes _ _ _ _ _ _ _ _ _ (Changes.refl _ s) rfl

/-- An event that a watch BLOCKs: the match counts, the REPLY WATCHED and the notices, and nothing else (R169, R170). -/
theorem State.blocked_leaves {s : State} {a : Nat} (h : s.takes a) (r : WatchResult) (ev : WatchEvent)
    (action clerk ticket article price : Nat) :
    let t := (((s.markTaken a).countMatches r).reply a action .watched []).noteMatches r ev 1 a clerk ticket article price 0
    t.answered a action .watched [] ∧ s.took t a
      ∧ t.wu = { a := raiseCount s.wu.a r.a.isSome, b := raiseCount s.wu.b r.b.isSome } ∧ Changes [.wu, .op, .lc] s t
      ∧ t.op = (s.noteMatches r ev 1 a clerk ticket article price 0).op := by
  intro t
  have htaken : Changes [.wu, .lc] s ((s.markTaken a).countMatches r) :=
    State.countMatches_changes r (State.markTaken_changes a (Changes.refl _ s) rfl) rfl
  have hcounted : Changes [.wu] (s.markTaken a) ((s.markTaken a).countMatches r) :=
    State.countMatches_changes r (Changes.refl _ _) rfl
  have hreply : Changes [.lc] ((s.markTaken a).countMatches r) (((s.markTaken a).countMatches r).reply a action .watched []) :=
    State.reply_changes a action .watched [] (Changes.refl _ _) rfl
  have hnotes := State.noteMatches_changes' (((s.markTaken a).countMatches r).reply a action .watched []) r ev 1 a clerk
    ticket article price 0
  obtain ⟨hanswered, htook⟩ := State.reply_after h hcounted (by decide) action .watched []
  refine ⟨State.answered_of_changes hanswered hnotes (by decide), State.took_of_changes htook hnotes (by decide), ?_, ?_, ?_⟩
  · exact (hnotes.same .wu rfl).trans (hreply.same .wu rfl)
  · exact ((htaken.grow (by simp)).trans (hreply.grow (by simp))).trans (hnotes.grow (by simp))
  · exact State.noteMatches_op_congr (s := s) (hreply.same .op rfl) r ev 1 a clerk ticket article price 0

/-! ## The item and the ticket after a void (R124) -/

theorem openOrHeld_iff {k : Ticket} : openOrHeld k = true ↔ k.state = .held ∨ ∃ m, k.state = .opened m := by
  unfold openOrHeld
  cases k.state <;> simp

theorem activeItem_of_getElem {l : List Item} {p : Nat} {i : Item} (hp : 1 ≤ p) (h : l[p - 1]? = some i) :
    activeItem l p = if i.voided then none else some i := by
  unfold activeItem
  rw [if_neg (by omega), h]

theorem activeItem_none {l : List Item} {p : Nat} (h : p = 0 ∨ l[p - 1]? = none) : activeItem l p = none := by
  unfold activeItem
  split
  · rfl
  · rename_i hp
    rw [h.resolve_left hp]

theorem voidAt_eq {l : List Item} {p : Nat} {i : Item} (hp : 1 ≤ p) (h : l[p - 1]? = some i) :
    voidAt l p = l.take (p - 1) ++ { i with voided := true } :: l.drop p := by
  induction l generalizing p with
  | nil => cases h
  | cons x rest ih =>
    obtain ⟨q, rfl⟩ : ∃ q, p = q + 1 := ⟨p - 1, by omega⟩
    cases q with
    | zero =>
      obtain rfl : x = i := by simpa using h
      rfl
    | succ q =>
      have hvoid : voidAt (x :: rest) (q + 1 + 1) = x :: voidAt rest (q + 1) := rfl
      rw [hvoid, ih (by omega) (by simpa using h)]
      rfl

section
variable (s : State) (k : Ticket) (i : Item) (p : Nat) (hold marks : Bool)

theorem State.withVoid_fields : (s.withVoid k i p hold marks).items = voidAt k.items p
    ∧ (s.withVoid k i p hold marks).total = k.total - i.price ∧ (s.withVoid k i p hold marks).number = k.number
    ∧ (s.withVoid k i p hold marks).clerk = k.clerk ∧ (s.withVoid k i p hold marks).aSeen = (k.aSeen || marks) := by
  unfold State.withVoid
  dsimp only
  split
  · exact ⟨rfl, rfl, rfl, rfl, rfl⟩
  · split <;> exact ⟨rfl, rfl, rfl, rfl, rfl⟩

variable {k} {hold}

/-- A ticket that a watch holds, or that is HELD already, is HELD (R124 step 3). -/
theorem State.withVoid_held (h : hold = true ∨ k.state = .held) : (s.withVoid k i p hold marks).state = .held
    ∧ (s.withVoid k i p hold marks).lastActivity = k.lastActivity := by
  unfold State.withVoid
  cases hold with
  | true => exact ⟨rfl, rfl⟩
  | false =>
    have hk : k.state = .held := h.resolve_left (by simp)
    simp [hk]

/-- An OPEN ticket is renewed (R124 step 3, R126). -/
theorem State.withVoid_renewed {m : Nat} (hk : k.state = .opened m) :
    (s.withVoid k i p false marks).state = .opened (moment s.op.now s.idleTimeout)
      ∧ (s.withVoid k i p false marks).lastActivity = s.op.now := by
  unfold State.withVoid
  simp [hk, State.renewed, State.idleDeadline]

end

/-! ## The checks of R124 -/

section
variable {s : State} {a c p : Nat}

theorem State.exec_voidItem (h : s.takes a) (p : Nat) :
    exec (.voidItem a p) s = .next ((s.markTaken a).takeVoidItem a p) :=
  congrArg _ (State.deliverAction_takes h _)

theorem State.openActive_none (h : ∀ k, s.activeOf c = some k → openOrHeld k = false) : s.openActive c = none := by
  unfold State.openActive
  cases hk : s.activeOf c with
  | none => rfl
  | some k => simp [h k hk]

theorem State.openActive_some {k : Ticket} (hk : s.activeOf c = some k) (ho : openOrHeld k = true) :
    s.openActive c = some k := by
  simp [State.openActive, hk, ho]

theorem State.takeVoidItem_noClerk (h : s.clerkAt a = none) : s.takeVoidItem a p = s.reply a 14 .noClerk [] := by
  unfold State.takeVoidItem
  rw [h]

theorem State.takeVoidItem_noTicket (hc : s.clerkAt a = some c) (hk : s.openActive c = none) :
    s.takeVoidItem a p = s.reply a 14 .wrongState [] := by
  unfold State.takeVoidItem
  simp only [hc, hk]

theorem State.takeVoidItem_proof {k : Ticket} (hc : s.clerkAt a = some c) (hk : s.openActive c = some k)
    (hp : (s.station a).state = .proof) : s.takeVoidItem a p = s.reply a 14 .proofOnly [] := by
  unfold State.takeVoidItem
  simp only [hc, hk, hp, if_true]

/-- VOID_ITEM at a scale that is not in PROOF, by the item at its position (R124 checks 4 and 5). -/
theorem State.takeVoidItem_item {k : Ticket} (h : s.mans a c) (hk : s.openActive c = some k) : s.takeVoidItem a p =
    (activeItem k.items p).elim (s.reply a 14 .badValue []) (fun i => s.watchedVoid a k i p) := by
  unfold State.takeVoidItem
  simp only [h.1, hk, if_neg h.2]
  cases activeItem k.items p <;> rfl

end

/-! ## The watch's judgement of a void (R124 check 5) -/

section
variable {s : State} {a p : Nat} {k : Ticket} {i : Item} {r : WatchResult}
  (hr : watchResult s.wu .void i.article i.price k.clerk k.aSeen = r)
include hr

theorem State.watchedVoid_blocked (h : r.outcome = some .block) : s.watchedVoid a k i p =
    ((s.countMatches r).reply a 14 .watched []).noteMatches r .void 1 a k.clerk k.number i.article i.price 0 := by
  unfold State.watchedVoid
  simp only [hr, h]

/-- A void that no watch blocks is carried out, and the notices follow with the event's outcome, HELD or DONE; without a
match there is no notice (R169, R170). -/
theorem State.watchedVoid_carried (h : r.outcome ≠ some .block) : s.watchedVoid a k i p =
    ((s.countMatches r).carryVoid a k i p (decide (r.outcome = some .hold)) (marksA s.wu r)).noteMatches r .void
      (if r.outcome = some .hold then 2 else 3) a k.clerk k.number i.article i.price p := by
  unfold State.watchedVoid
  simp only [hr]
  cases ho : r.outcome with
  | none => exact (State.noteMatches_of_no_match _ (WatchResult.no_match_of_outcome ho) ..).symm
  | some x =>
    cases x with
    | block => exact absurd ho h
    | hold | note => rfl

end

/-! ## An accepted void -/

/-- What a void that no watch blocks leaves, with its notices of the outcome given (R124, R170). -/
theorem State.void_leaves {s : State} {a : Nat} (h : s.takes a) (k : Ticket) (i : Item) (p : Nat) (hold marks : Bool)
    (r : WatchResult) (outcome : Nat) :
    let u := s.withVoid k i p hold marks
    let t := (((s.markTaken a).countMatches r).carryVoid a k i p hold marks).noteMatches r .void outcome a k.clerk k.number
      i.article i.price p
    s.took t a ∧ t.wu = { a := raiseCount s.wu.a r.a.isSome, b := raiseCount s.wu.b r.b.isSome }
      ∧ Changes [.sc, .lc, .wu, .op] s t
      ∧ t.op = (s.noteMatches r .void outcome a k.clerk k.number i.article i.price p).op
      ∧ t.sc = { s.sc with tickets := s.sc.tickets.map (fun x => if x.number = k.number then u else x) }
      ∧ t.answered a 14 .ok (chars 2 k.number ++ chars 4 (k.total - i.price) ++ chars 1 (ticketStateCode u.state)) := by
  intro u t
  obtain ⟨-, htotal, hnumber, -, -⟩ := s.withVoid_fields k i p hold marks
  obtain ⟨v, hv⟩ : ∃ v, v = ((s.markTaken a).countMatches r).putTicket u := ⟨_, rfl⟩
  obtain ⟨w, hw⟩ : ∃ w, w = v.reply a 14 .ok
    (chars 2 k.number ++ chars 4 (k.total - i.price) ++ chars 1 (ticketStateCode u.state)) := ⟨_, rfl⟩
  have hcarried : ((s.markTaken a).countMatches r).carryVoid a k i p hold marks = w := by
    rw [hw, hv, ← htotal, ← hnumber]
    rfl
  have ht : t = w.noteMatches r .void outcome a k.clerk k.number i.article i.price p := by rw [← hcarried]
  have hput : Changes [.sc, .wu] (s.markTaken a) v := by
    rw [hv]
    exact State.putTicket_changes u (State.countMatches_changes r (Changes.refl _ _) rfl) rfl
  have hreply : Changes [.lc] v w := by
    rw [hw]
    exact State.reply_changes a 14 .ok _ (Changes.refl _ v) rfl
  have hnotes : Changes [.op] w t := ht ▸ w.noteMatches_changes' ..
  have htaken : Changes [.lc] s (s.markTaken a) := State.markTaken_changes a (Changes.refl _ s) rfl
  obtain ⟨hanswered, htook⟩ := State.reply_after h hput (by decide) 14 .ok
    (chars 2 k.number ++ chars 4 (k.total - i.price) ++ chars 1 (ticketStateCode u.state))
  rw [← hw] at hanswered htook
  refine ⟨State.took_of_changes htook hnotes (by decide), ?_, ?_, ?_, ?_, State.answered_of_changes hanswered hnotes (by decide)⟩
  · rw [hnotes.same .wu rfl, hreply.same .wu rfl, hv]
    rfl
  · exact (((htaken.grow (by simp)).trans (hput.grow (by simp))).trans (hreply.grow (by simp))).trans (hnotes.grow (by simp))
  · rw [ht]
    exact State.noteMatches_op_congr (s := s) (by rw [hreply.same .op rfl, hput.same .op rfl]; rfl) ..
  · rw [hnotes.same .sc rfl, hreply.same .sc rfl, hv, ← hnumber]
    rfl

/-- Settles O51. -/
theorem voidItemVoids : Obligations.VoidItemVoids := by
  intro s a p h act
  have hexec := State.exec_voidItem h p
  refine ⟨fun hc => ?_, fun c hc => ⟨fun hk => ?_, fun k hk ho => ⟨fun hp => ?_, fun hp => ?_⟩⟩⟩
  · exact hexec.trans (congrArg _ (State.takeVoidItem_noClerk (s := s.markTaken a) hc))
  · exact hexec.trans (congrArg _ (State.takeVoidItem_noTicket (s := s.markTaken a) hc (State.openActive_none hk)))
  · exact hexec.trans (congrArg _ (State.takeVoidItem_proof (s := s.markTaken a) hc (State.openActive_some hk ho)
      (by rw [State.markTaken_state]; exact hp)))
  have htake := State.takeVoidItem_item (p := p) (State.markTaken_mans ⟨hc, hp⟩) (State.openActive_some hk ho)
  refine ⟨fun hnone => ?_, fun i hp1 hi => ?_⟩
  · rw [activeItem_none hnone] at htake
    exact hexec.trans (congrArg _ htake)
  intro w counted
  rw [activeItem_of_getElem hp1 hi] at htake
  refine ⟨fun hvoided => ?_, fun hvoided hblock => ?_, fun hvoided hblock => ?_⟩
  · rw [if_pos hvoided] at htake
    exact hexec.trans (congrArg _ htake)
  all_goals
    have htake := htake.trans (congrArg (Option.elim · _ _) (if_neg (by simp [hvoided])))
  · have hwatch := State.watchedVoid_blocked (s := s.markTaken a) (a := a) (p := p) (r := w) rfl hblock
    exact ⟨_, hexec.trans (congrArg _ (htake.trans hwatch)), State.blocked_leaves h w .void 14 k.clerk k.number i.article i.price⟩
  · have hwatch := State.watchedVoid_carried (s := s.markTaken a) (a := a) (p := p) (r := w) rfl hblock
    obtain ⟨htook, hwu, hchanges, hop, hsc, hanswered⟩ := State.void_leaves h k i p (decide (w.outcome = some .hold))
      (marksA s.wu w) w (if w.outcome = some .hold then 2 else 3)
    obtain ⟨hitems, htotal, hnumber, hclerk, hseen⟩ := s.withVoid_fields k i p (decide (w.outcome = some .hold)) (marksA s.wu w)
    refine ⟨_, s.withVoid k i p (decide (w.outcome = some .hold)) (marksA s.wu w), hexec.trans (congrArg _ (htake.trans hwatch)),
      htook, hwu, hchanges, hop, hsc, hanswered, hitems.trans (voidAt_eq hp1 hi), htotal, hnumber, hclerk, hseen,
      fun hheld => State.withVoid_held s i p (marksA s.wu w) (hheld.imp_left decide_eq_true), fun hfree hopen => ?_⟩
    obtain ⟨m, hm⟩ := (openOrHeld_iff.mp ho).resolve_left hopen
    rw [decide_eq_false hfree]
    exact State.withVoid_renewed s i p (marksA s.wu w) hm

end Sys2Proof.Machine
end

section
/-! ADD: its checks in order, the item that an accepted addition places, the release of the pin with its settle check, and
the WATCH_MATCH notices (R97, R100, R101, R121, R123, R166 to R170). -/

namespace Sys2Proof.Machine

/-! ## The checks of R121 -/

section
variable {s : State} {a c stamp : Nat}

theorem State.exec_add (h : s.takes a) (stamp : Nat) : exec (.add a stamp) s = .next ((s.markTaken a).takeAdd a stamp) :=
  congrArg _ (State.deliverAction_takes h _)

theorem State.takeAdd_noClerk (h : s.clerkAt a = none) : s.takeAdd a stamp = s.reply a 12 .noClerk [] := by
  unfold State.takeAdd
  rw [h]

theorem State.takeAdd_noTicket (hc : s.clerkAt a = some c) (hk : s.activeOf c = none) :
    s.takeAdd a stamp = s.reply a 12 .wrongState [] := by
  unfold State.takeAdd
  simp only [hc, hk]

section
variable {k : Ticket} (hc : s.clerkAt a = some c) (hk : s.activeOf c = some k)
include hc hk

theorem State.takeAdd_held (h : k.state = .held) : s.takeAdd a stamp = s.reply a 12 .held [] := by
  unfold State.takeAdd
  simp only [hc, hk, h]

theorem State.takeAdd_wrongState (h : k.state = .printWait ∨ (∃ m, k.state = .parked m) ∨ ∃ job, k.state = .printing job) :
    s.takeAdd a stamp = s.reply a 12 .wrongState [] := by
  unfold State.takeAdd
  rcases h with h | ⟨m, h⟩ | ⟨job, h⟩ <;> simp only [hc, hk, h]

theorem State.takeAdd_opened {m : Nat} (h : k.state = .opened m) : s.takeAdd a stamp = s.addTo a stamp k := by
  unfold State.takeAdd
  simp only [hc, hk, h]

end

variable {k : Ticket}

theorem State.addTo_proof (hp : (s.station a).state = .proof) : s.addTo a stamp k = s.reply a 12 .proofOnly [] := by
  unfold State.addTo
  rw [if_pos hp]

section
variable (hp : (s.station a).state ≠ .proof)
include hp

theorem State.addTo_refused {code : ReplyCode} (h : s.itemCheck a stamp = .refused code) :
    s.addTo a stamp k = s.reply a 12 code [] := by
  unfold State.addTo
  simp only [if_neg hp, h]

theorem State.addTo_item {p : Snapshot} {i : Item} (h : s.itemCheck a stamp = .item p i) : s.addTo a stamp k =
    if 24 ≤ k.items.length then s.reply a 12 .ticketFull [] else s.watchedAdd a k i := by
  unfold State.addTo
  simp only [if_neg hp, h]

end

/-! The checks of stamp and verdict, which ADD and LABEL share (R121 checks 4 and 5, R145). -/

theorem State.itemCheck_stale (h : stamp ≠ (s.channel a).stamp) : s.itemCheck a stamp = .refused .stale := by
  unfold State.itemCheck
  rw [if_pos h]

theorem State.itemCheck_refused {code : ReplyCode} (h : stamp = (s.channel a).stamp)
    (hv : verdictRefused (s.channel a).verdict = some code) : s.itemCheck a stamp = .refused code := by
  unfold State.itemCheck
  simp only [h, ne_eq, not_true_eq_false, if_false, hv]

theorem State.itemCheck_item {p : Snapshot} (h : stamp = (s.channel a).stamp)
    (hv : verdictRefused (s.channel a).verdict = none) (hp : (s.channel a).ctx.pin = some p) :
    s.itemCheck a stamp = .item p (itemOf p (s.channel a).verdict a) := by
  unfold State.itemCheck
  simp only [h, ne_eq, not_true_eq_false, if_false, hv, hp]

end

/-! ## The watch's judgement of an addition (R121 check 7) -/

section
variable {s : State} {a : Nat} {k : Ticket} {i : Item} {r : WatchResult}
  (hr : watchResult s.wu .add i.article i.price k.clerk k.aSeen = r)
include hr

theorem State.watchedAdd_blocked (h : r.outcome = some .block) : s.watchedAdd a k i =
    ((s.countMatches r).reply a 12 .watched []).noteMatches r .add 1 a k.clerk k.number i.article i.price 0 := by
  unfold State.watchedAdd
  simp only [hr, h]

/-- An addition that no watch blocks is carried out, and the notices follow with the event's outcome, HELD or DONE; without
a match there is no notice (R169, R170). -/
theorem State.watchedAdd_carried (h : r.outcome ≠ some .block) : s.watchedAdd a k i =
    ((s.countMatches r).carryAdd a k i (decide (r.outcome = some .hold)) (marksA s.wu r)).noteMatches r .add
      (if r.outcome = some .hold then 2 else 3) a k.clerk k.number i.article i.price (k.items.length + 1) := by
  unfold State.watchedAdd
  simp only [hr]
  cases ho : r.outcome with
  | none => exact (State.noteMatches_of_no_match _ (WatchResult.no_match_of_outcome ho) ..).symm
  | some x =>
    cases x with
    | block => exact absurd ho h
    | hold | note => rfl

end

/-! ## An addition carried out (R123) -/

/-- The ticket with the item: HELD by a watch, or renewed. -/
theorem State.withItem_eq (s : State) (k : Ticket) (i : Item) (hold marks : Bool) : s.withItem k i hold marks =
    { k with
      items := k.items ++ [i]
      total := k.total + i.price
      aSeen := k.aSeen || marks
      state := if hold = true then .held else .opened (moment s.op.now s.idleTimeout)
      lastActivity := if hold = true then k.lastActivity else s.op.now } := by
  cases hold <;> rfl

/-- The ticket with the item in the table, and the article's reference count raised (R123 steps 1 to 3 and 5). -/
def State.itemPlaced (s : State) (k : Ticket) (i : Item) (hold marks : Bool) : State :=
  (s.putTicket (s.withItem k i hold marks)).addRef i.article

/-- What the REPLY of an addition carries (R123 step 6). -/
def addedChars (k : Ticket) (i : Item) (hold : Bool) : List Byte :=
  chars 2 k.number ++ chars 4 (k.total + i.price) ++ chars 1 (k.items.length + 1) ++ chars 1 (if hold = true then 2 else 1)

section
variable (s : State) (a : Nat) (k : Ticket) (i : Item) (hold marks : Bool)

theorem State.itemPlaced_changes : Changes [.sc, .art] s (s.itemPlaced k i hold marks) :=
  State.addRef_changes _ (State.putTicket_changes _ (Changes.refl _ s) rfl) rfl

theorem State.itemPlaced_sc : (s.itemPlaced k i hold marks).sc = (s.putTicket (s.withItem k i hold marks)).sc := rfl

theorem State.itemPlaced_article : (s.itemPlaced k i hold marks).article i.article =
    { s.article i.article with refs := (s.article i.article).refs + 1 } := by
  unfold State.itemPlaced State.addRef
  dsimp only
  rw [State.article_setArticle, if_pos rfl]
  rfl

/-- The pin is released after the item is placed, then the REPLY is offered, then its article is checked (R123). -/
theorem State.carryAdd_eq : s.carryAdd a k i hold marks =
    (((s.itemPlaced k i hold marks).releasePin a).reply a 12 .ok (addedChars k i hold)).finish (s.unpinTouches a) := by
  unfold State.carryAdd addedChars
  dsimp only
  rw [State.withItem_eq]
  cases hold <;> simp only [List.length_append, List.length_singleton] <;> rfl

theorem State.carryAdd_added : Changes [.cd, .art, .op, .lc] ((s.itemPlaced k i hold marks).releasePin a)
    (s.carryAdd a k i hold marks) := by
  rw [State.carryAdd_eq]
  exact State.finish_changes _ (State.reply_changes a 12 .ok _ (Changes.refl _ _) rfl) rfl

theorem State.carryAdd_sc : (s.carryAdd a k i hold marks).sc = (s.putTicket (s.withItem k i hold marks)).sc := by
  have hrelease : Changes [.we, .art, .lc] _ ((s.itemPlaced k i hold marks).releasePin a) :=
    State.releasePin_changes a (Changes.refl _ _) rfl
  rw [(s.carryAdd_added a k i hold marks).same .sc rfl, hrelease.same .sc rfl, State.itemPlaced_sc]

theorem State.carryAdd_refs : ((s.carryAdd a k i hold marks).article i.article).refs = (s.article i.article).refs + 1 := by
  have hreply := State.reply_changes (m := [.lc]) a 12 .ok (addedChars k i hold)
    (Changes.refl _ ((s.itemPlaced k i hold marks).releasePin a)) rfl
  rw [State.carryAdd_eq, State.finish_refs, State.article_of_art (hreply.same .art rfl), State.releasePin_article]
  split <;> rw [State.itemPlaced_article]

/-- The scale's channel without its pin, evaluated; no other channel changes (R97, R123 step 4). -/
theorem State.carryAdd_channel (b : Nat) : (s.carryAdd a k i hold marks).channel b =
    if b = a ∧ (s.channel a).ctx.pin.isSome = true then
      judged (unpinned (s.channel a)) (s.verdictOf a (unpinned (s.channel a)))
    else s.channel b :=
  (State.channel_of_we ((s.carryAdd_added a k i hold marks).same .we rfl) b).trans (State.releasePin_channel _ a b)

/-- The REPLY stands last, and the scale alone was offered messages: at most the SHOW of the release and the REPLY. -/
theorem State.carryAdd_offers : Offers a 2 s (s.carryAdd a k i hold marks) := by
  have hplaced := (Offers.refl a s).then_changes (s.itemPlaced_changes k i hold marks) (by decide)
  rw [State.carryAdd_eq]
  exact ((hplaced.trans (State.releasePin_offers _ a)).trans (State.reply_offers ..)).then_lc (State.finish_lc ..)

theorem State.carryAdd_answered (hs : s.inService a = true) (hq : ordinary (s.station a).queue ≤ 6) :
    (s.carryAdd a k i hold marks).answered a 12 .ok (addedChars k i hold) := by
  have hplaced := (Offers.refl a s).then_changes (s.itemPlaced_changes k i hold marks) (by decide)
  rw [State.carryAdd_eq]
  exact State.answered_of_lc (State.finish_lc ..) ((hplaced.trans (State.releasePin_offers _ a)).answered hs (by omega))

/-- The pin's end at an addition, with the reference count that the addition itself has raised (R97, R123 step 7). -/
theorem State.carryAdd_pinEnded {p : Snapshot} (hp : (s.channel a).ctx.pin = some p) (hi : i.article = p.number) :
    s.PinEnded (s.carryAdd a k i hold marks) (s.carryAdd a k i hold marks).op a p.number
      { (s.article p.number).withoutPin a with refs := (s.article p.number).refs + 1 } := by
  have htouched : s.unpinTouches a = [p.number] := by simp [State.unpinTouches, State.pinned, hp]
  have hplaced := s.itemPlaced_changes k i hold marks
  have harticle := s.itemPlaced_article k i hold marks
  have hpins : ∀ n, ((s.itemPlaced k i hold marks).article n).pins = (s.article n).pins := fun n => by
    unfold State.itemPlaced State.addRef
    dsimp only
    rw [State.article_setArticle]
    split
    · rename_i hn
      rw [hn]
      rfl
    · rfl
  have hended := State.releasePin_pinEnded (s := s.itemPlaced k i hold marks) (a := a) (p := p)
    (by rw [State.channel_of_we (hplaced.same .we rfl), hp])
    (State.reply_changes a 12 .ok (addedChars k i hold) (Changes.refl _ _) rfl)
  rw [← htouched, ← State.carryAdd_eq, ← hi, harticle] at hended
  rw [← hi]
  exact hended.congr (State.changeOf_of_cd (hplaced.same .cd rfl) _).symm (hplaced.same .op rfl).symm
    (fun c _ => (State.oldPins_congr (hpins _) (hplaced.same .we rfl)).symm) rfl rfl

end

/-- What an addition that no watch blocks leaves, with its notices of the outcome given (R123, R170). -/
theorem State.add_leaves {s : State} {a : Nat} (h : s.takes a) (k : Ticket) {i : Item} (hold marks : Bool) (r : WatchResult)
    (outcome : Nat) {p : Snapshot} (hp : (s.channel a).ctx.pin = some p) (hi : i.article = p.number) :
    let u := ((s.markTaken a).countMatches r).carryAdd a k i hold marks
    let t := u.noteMatches r .add outcome a k.clerk k.number i.article i.price (k.items.length + 1)
    s.took t a ∧ t.wu = { a := raiseCount s.wu.a r.a.isSome, b := raiseCount s.wu.b r.b.isSome } ∧ t.tu = s.tu ∧ t.qc = s.qc
      ∧ t.answered a 12 .ok (addedChars k i hold) ∧ t.sc = (s.putTicket (s.withItem k i hold marks)).sc
      ∧ (t.article p.number).refs = (s.article p.number).refs + 1
      ∧ t.channel a = judged (unpinned (s.channel a)) (s.verdictOf a (unpinned (s.channel a))) ∧ ChannelOnly a s t
      ∧ s.PinEnded t u.op a p.number
          { (s.article p.number).withoutPin a with refs := (s.article p.number).refs + 1 } := by
  intro u t
  obtain ⟨hs, hroom⟩ := State.takes_room h
  obtain ⟨v, hv⟩ : ∃ v, v = (s.markTaken a).countMatches r := ⟨_, rfl⟩
  have hu : u = v.carryAdd a k i hold marks := by rw [hv]
  have hcounted : Changes [.wu] (s.markTaken a) v := hv ▸ State.countMatches_changes r (Changes.refl _ _) rfl
  have hcarried : Changes [.sc, .art, .we, .lc, .cd, .op] v u := hu ▸ State.carryAdd_changes a k i hold marks (Changes.refl _ v) rfl
  have hnotes : Changes [.op] u t := u.noteMatches_changes' ..
  have hlc : v.lc = (s.markTaken a).lc := hcounted.same .lc rfl
  have hpin : (v.channel a).ctx.pin = some p := by rw [hv]; exact hp
  have hchannel (b : Nat) : t.channel b = if b = a then
      judged (unpinned (s.channel a)) (s.verdictOf a (unpinned (s.channel a))) else s.channel b := by
    have hverdict : v.verdictOf a = s.verdictOf a :=
      State.verdictOf_congr (by rw [hv]; rfl) (by rw [State.station_of_lc hlc]; exact s.markTaken_state a a)
    have hv' (b : Nat) : v.channel b = s.channel b := by rw [hv]; rfl
    rw [State.channel_of_we (hnotes.same .we rfl), hu, State.carryAdd_channel, hpin, hverdict, hv', hv']
    simp
  have hoffers := ((Offers.of_lc (a := a) hlc).trans (v.carryAdd_offers a k i hold marks)).then_changes (hu ▸ hnotes) (by decide)
  have hanswered : u.answered a 12 .ok (addedChars k i hold) := by
    rw [hu]
    refine v.carryAdd_answered a k i hold marks ?_ ?_
    · rw [State.inService_of_lc hlc, hs]
    · rw [State.station_of_lc hlc]
      omega
  have hended := v.carryAdd_pinEnded a k i hold marks hpin hi
  rw [← hu, hv] at hended
  refine ⟨State.took_of_offers hoffers, ?_, ?_, ?_, State.answered_of_changes hanswered hnotes (by decide), ?_, ?_, ?_,
    fun b hb => ?_, hended.congr rfl rfl (fun _ _ => rfl) ?_ ?_⟩
  · rw [hnotes.same .wu rfl, hcarried.same .wu rfl, hv]
    rfl
  · rw [hnotes.same .tu rfl, hcarried.same .tu rfl, hv]
    rfl
  · rw [hnotes.same .qc rfl, hcarried.same .qc rfl, hv]
    rfl
  · rw [hnotes.same .sc rfl, hu, State.carryAdd_sc, hv]
    rfl
  · rw [State.article_of_art (hnotes.same .art rfl), hu, ← hi, State.carryAdd_refs, hv]
    rfl
  · rw [hchannel, if_pos rfl]
  · rw [hchannel, if_neg hb]
  · exact State.changeOf_of_cd (hnotes.same .cd rfl) _
  · exact State.article_of_art (hnotes.same .art rfl) _

/-- Settles O50. -/
theorem addPlacesItem : Obligations.AddPlacesItem := by
  intro s a stamp h act ch
  have hexec := State.exec_add h stamp
  refine ⟨fun hc => ?_, fun c hc => ⟨fun hk => ?_, fun k hk => ⟨fun hheld => ?_, fun hwait => ?_, fun m hm => ?_⟩⟩⟩
  · exact hexec.trans (congrArg _ (State.takeAdd_noClerk (s := s.markTaken a) hc))
  · exact hexec.trans (congrArg _ (State.takeAdd_noTicket (s := s.markTaken a) hc hk))
  · exact hexec.trans (congrArg _ (State.takeAdd_held (s := s.markTaken a) hc hk hheld))
  · exact hexec.trans (congrArg _ (State.takeAdd_wrongState (s := s.markTaken a) hc hk hwait))
  replace hexec := hexec.trans (congrArg _ (State.takeAdd_opened (s := s.markTaken a) hc hk hm))
  refine ⟨fun hp => ?_, fun hp => ?_⟩
  · exact hexec.trans (congrArg _ (State.addTo_proof (by rw [State.markTaken_state]; exact hp)))
  have hserving : ((s.markTaken a).station a).state ≠ .proof := by rw [State.markTaken_state]; exact hp
  refine ⟨fun hstamp => ?_, fun code hstamp hv => ?_, fun p hstamp hv hpin => ?_⟩
  · exact hexec.trans (congrArg _ (State.addTo_refused hserving (State.itemCheck_stale (s := s.markTaken a) hstamp)))
  · exact hexec.trans (congrArg _ (State.addTo_refused hserving (State.itemCheck_refused (s := s.markTaken a) hstamp hv)))
  intro i w counted
  have hitem := State.addTo_item (k := k) hserving (State.itemCheck_item (s := s.markTaken a) hstamp hv hpin)
  refine ⟨fun hfull => ?_, fun hroom hblock => ?_, fun hroom hblock => ?_⟩
  · rw [if_pos hfull] at hitem
    exact hexec.trans (congrArg _ hitem)
  all_goals rw [if_neg (by omega)] at hitem
  · have hwatch := State.watchedAdd_blocked (s := s.markTaken a) (a := a) (k := k) (i := i) (r := w) rfl hblock
    exact ⟨_, hexec.trans (congrArg _ (hitem.trans hwatch)), State.blocked_leaves h w .add 12 k.clerk k.number p.number i.price⟩
  · have hwatch := State.watchedAdd_carried (s := s.markTaken a) (a := a) (k := k) (i := i) (r := w) rfl hblock
    obtain ⟨htook, hwu, htu, hqc, hanswered, hsc, hrefs, hchannel, honly, hended⟩ := State.add_leaves h k (i := i)
      (decide (w.outcome = some .hold)) (marksA s.wu w) w (if w.outcome = some .hold then 2 else 3) hpin rfl
    rw [State.withItem_eq] at hsc
    simp only [addedChars, decide_eq_true_eq] at hanswered hsc
    exact ⟨_, hexec.trans (congrArg _ (hitem.trans hwatch)), htook, hwu, htu, hqc, hanswered, hsc, hrefs, hchannel, honly,
      rfl, hended⟩

end Sys2Proof.Machine
end

section
/-! Tickets that leave the table: VOID_TICKET, TKT.CANCEL and the expiry deadline as abandoned, SKIP without accounting, and
the CALLOUT of SKIP (R18, R125 to R127, R129, R152, R153, R156, R176). -/

namespace Sys2Proof.Machine

/-! ## A removal as abandoned (R125, R176) -/

section
variable {s t : State}

theorem State.setLiveBank_tu_congr (h : t.tu = s.tu) (b : Bank) : (t.setLiveBank b).tu = (s.setLiveBank b).tu := by
  unfold State.setLiveBank
  rw [h]
  cases s.tu.live <;> rfl

theorem State.setLiveBank_op (s : State) (b : Bank) : (s.setLiveBank b).op = s.op :=
  (State.setLiveBank_changes (m := [.tu]) b (Changes.refl _ s) rfl).same .op rfl

/-- What a posting or an accounting leaves of the banks depends on the Totals Unit alone. -/
theorem State.account_tu_congr (h : t.tu = s.tu) (cause ticket : Nat) (f : Posting → Posting) :
    (t.account cause ticket f).tu = (s.account cause ticket f).tu := by
  have hbank : t.liveBank = s.liveBank := by unfold State.liveBank; rw [h]
  unfold State.account
  dsimp only
  rw [hbank]
  split
  · exact State.setLiveBank_tu_congr h _
  · split <;> exact State.setLiveBank_tu_congr h _

/-- Its notice depends on the Totals Unit and the Office Port alone. -/
theorem State.account_op_congr (h : t.tu = s.tu) (ho : t.op = s.op) (cause ticket : Nat) (f : Posting → Posting) :
    (t.account cause ticket f).op = (s.account cause ticket f).op := by
  have hbank : t.liveBank = s.liveBank := by unfold State.liveBank; rw [h]
  have hset (b : Bank) : (t.setLiveBank b).op = (s.setLiveBank b).op := by
    rw [State.setLiveBank_op, State.setLiveBank_op, ho]
  unfold State.account
  dsimp only
  rw [hbank, h]
  split
  · exact hset _
  · split
    · exact hset _
    · exact State.raise_op_congr (hset _) _ _

theorem State.raise_now (s : State) (kind : NoticeKind) (l : List Nat) : (s.raise kind l).op.now = s.op.now := by
  unfold State.raise OfficePort.place
  dsimp only
  (repeat' split) <;> rfl

theorem State.account_now (s : State) (cause ticket : Nat) (f : Posting → Posting) :
    (s.account cause ticket f).op.now = s.op.now := by
  unfold State.account
  dsimp only
  (repeat' split) <;> simp only [State.raise_now, State.setLiveBank_op]

/-- A removal reads and changes only the tickets, the clerks and the articles. -/
theorem State.removed.then_changes {u : State} {k : Ticket} {l : List Block} (h : s.removed t k) (g : Changes l t u)
    (hsc : Block.sc ∉ l) (hart : Block.art ∉ l) : s.removed u k := by
  obtain ⟨htickets, hactive, hothers, hrefs⟩ := h
  have hs : u.sc = t.sc := g.frame .sc hsc
  have ha : u.art = t.art := g.frame .art hart
  refine ⟨by rw [hs, htickets], fun hk => by rw [State.clerk_of_sc hs, hactive hk],
    fun c hc => by rw [State.clerk_of_sc hs, hothers c hc], fun n => by rw [State.article_of_art ha, hrefs]⟩

theorem State.abandon_changes' (s : State) (k : Ticket) : Changes [.sc, .we, .art, .tu, .op] s (s.abandon k) :=
  State.abandon_changes k (Changes.refl _ s) rfl

/-- A removal as abandoned in a state that agrees with s but for the line and the time. -/
theorem State.abandon_removed (hsc : t.sc = s.sc) (hart : t.art = s.art) (htu : t.tu = s.tu) (k : Ticket) :
    s.removed (t.abandon k) k ∧ (t.abandon k).tu = (s.accountAbandoned k).tu
      ∧ (t.abandon k).op = (t.accountAbandoned k).op := by
  have haccount : Changes [.tu, .op] t (t.accountAbandoned k) := State.accountAbandoned_changes k (Changes.refl _ t) rfl
  have hremove := (t.accountAbandoned k).removeTicket_changes' k
  refine ⟨?_, ?_, hremove.same .op rfl⟩
  · exact (State.removeTicket_removed _ k).congr ((haccount.same .sc rfl).trans hsc) ((haccount.same .art rfl).trans hart)
  · exact (hremove.same .tu rfl).trans (State.account_tu_congr htu ..)

end

/-! ## VOID_TICKET (R127) -/

section
variable {s : State} {a c : Nat}

theorem State.exec_voidTicket (h : s.takes a) : exec (.voidTicket a) s = .next ((s.markTaken a).takeVoidTicket a) :=
  congrArg _ (State.deliverAction_takes h _)

theorem State.takeVoidTicket_noClerk (h : s.clerkAt a = none) : s.takeVoidTicket a = s.reply a 15 .noClerk [] := by
  unfold State.takeVoidTicket
  rw [h]

theorem State.takeVoidTicket_noTicket (hc : s.clerkAt a = some c) (hk : s.openActive c = none) :
    s.takeVoidTicket a = s.reply a 15 .wrongState [] := by
  unfold State.takeVoidTicket
  simp only [hc, hk]

theorem State.takeVoidTicket_proof {k : Ticket} (hc : s.clerkAt a = some c) (hk : s.openActive c = some k)
    (hp : (s.station a).state = .proof) : s.takeVoidTicket a = s.reply a 15 .proofOnly [] := by
  unfold State.takeVoidTicket
  simp only [hc, hk, hp, if_true]

theorem State.takeVoidTicket_abandons {k : Ticket} (h : s.mans a c) (hk : s.openActive c = some k) :
    s.takeVoidTicket a = (s.abandon k).reply a 15 .ok (chars 2 k.number) := by
  unfold State.takeVoidTicket
  simp only [h.1, hk, if_neg h.2]

variable (h : s.takes a)
include h

/-- VOID_TICKET without an OPEN or HELD active ticket (R127 check 2). -/
theorem State.voidTicket_wrongState (hc : s.clerkAt a = some c)
    (hk : ∀ k, s.activeOf c = some k → openOrHeld k = false) : s.turnsAway (.voidTicket a) a 15 .wrongState :=
  (State.exec_voidTicket h).trans
    (congrArg _ (State.takeVoidTicket_noTicket (s := s.markTaken a) hc (State.openActive_none hk)))

/-- VOID_TICKET of an OPEN or HELD ticket removes it as abandoned. -/
theorem State.voidTicket_removes {k : Ticket} (hm : s.mans a c) (hk : s.activeOf c = some k) (ho : openOrHeld k = true) :
    ∃ t, exec (.voidTicket a) s = .next t ∧ t.answered a 15 .ok (chars 2 k.number) ∧ s.removed t k
      ∧ t.tu = (s.accountAbandoned k).tu ∧ t.op = (s.accountAbandoned k).op := by
  have htake := State.takeVoidTicket_abandons (State.markTaken_mans hm) (State.openActive_some (s := s.markTaken a) hk ho)
  obtain ⟨hremoved, htu, hop⟩ := State.abandon_removed (s := s) (t := s.markTaken a) rfl rfl rfl k
  have hreply : Changes [.lc] ((s.markTaken a).abandon k) _ :=
    State.reply_changes a 15 .ok (chars 2 k.number) (Changes.refl _ _) rfl
  obtain ⟨hanswered, -⟩ := State.reply_after h ((s.markTaken a).abandon_changes' k) (by decide) 15 .ok (chars 2 k.number)
  refine ⟨_, (State.exec_voidTicket h).trans (congrArg _ htake), hanswered,
    hremoved.then_changes hreply (by decide) (by decide), (hreply.same .tu rfl).trans htu, ?_⟩
  exact ((hreply.same .op rfl).trans hop).trans (State.account_op_congr (s := s) (t := s.markTaken a) rfl rfl ..)

end

/-! ## TKT.CANCEL (R129) -/

section
variable {s : State} {n : Nat} (h1 : 1 ≤ n) (h2 : n ≤ 999)
include h1 h2

theorem State.tktCancel_none (hk : s.ticketOf n = none) : s.tktCancel (chars 2 n) = (s, .refuse .notFound) := by
  unfold State.tktCancel
  dsimp only
  rw [field_chars_eq (by omega), if_neg (by rw [chars_length]; omega), hk]

theorem State.tktCancel_ticket {k : Ticket} (hk : s.ticketOf n = some k) : s.tktCancel (chars 2 n) =
    if isPrinting k then (s, .refuse .wrongState) else (s.abandon k, .ok []) := by
  unfold State.tktCancel
  dsimp only
  rw [field_chars_eq (by omega), if_neg (by rw [chars_length]; omega), hk]

end

theorem State.exec_tktCancel {s u : State} {n : Nat} {r : Answer} (hr : s.op.resetLow = false)
    (h : s.tktCancel (chars 2 n) = (u, r)) :
    exec (.tktCancel (chars 2 n)) s = .next (u.responded 65 r.result r.clamped r.body 5) := by
  show Host.Outcome.next (s.transact 65 (chars 2 n) (fun t => t.tktCancel (chars 2 n))) = _
  rw [State.transact_responds hr (by simp) h, chars_length]

/-- TKT.CANCEL of a ticket that is not PRINTING removes it as abandoned. -/
theorem State.tktCancel_removes {s : State} {n : Nat} {k : Ticket} (hr : s.op.resetLow = false)
    (h : s.tktCancel (chars 2 n) = (s.abandon k, .ok [])) :
    ∃ t, exec (.tktCancel (chars 2 n)) s = .next t ∧ s.removed t k ∧ t.tu = (s.accountAbandoned k).tu
      ∧ t.op.fifo = (s.accountAbandoned k).op.fifo
      ∧ t.op.response = some { code := 65, result := .ok, clamped := false, body := [] } := by
  obtain ⟨hremoved, htu, hop⟩ := State.abandon_removed (s := s) (t := s) rfl rfl rfl k
  exact ⟨_, State.exec_tktCancel hr h, hremoved, htu, congrArg (·.fifo) hop, rfl⟩

/-! ## The expiry deadline (R126) -/

/-- The row of a deadline that stands, while RESET is high: the time base comes to it, and it is taken (log entry 1). -/
theorem State.deadlineRow_taken {s : State} {d : Deadline} {m : Nat} (hr : s.op.resetLow = false)
    (h : s.deadlineOf d = some m) : s.deadlineRow d = (s.reach m).takeDeadline d := by
  simp [State.deadlineRow, State.expire, h, hr]

theorem State.exec_expiryDeadline {s : State} {n m : Nat} {k : Ticket} (hr : s.op.resetLow = false)
    (hk : s.ticketOf n = some k) (hs : k.state = .parked m) :
    exec (.expiryDeadlineExpiry n) s = .next ((s.reach m).expiryExpired k) := by
  have hdeadline : s.deadlineOf (.expiry n) = some m := by simp [State.deadlineOf, hk, expiryMoment, hs]
  have hreached : (s.reach m).ticketOf n = some k := hk
  show Host.Outcome.next (s.deadlineRow (.expiry n)) = _
  rw [State.deadlineRow_taken hr hdeadline]
  simp only [State.takeDeadline, hreached]

/-- A PARKED ticket that expires is removed as abandoned; its notice comes behind that of the accounting (log entry 8). -/
theorem State.expiryDeadline_removes {s : State} {n m : Nat} {k : Ticket} (hr : s.op.resetLow = false)
    (hk : s.ticketOf n = some k) (hs : k.state = .parked m) :
    ∃ t, exec (.expiryDeadlineExpiry n) s = .next t ∧ s.removed t k ∧ t.tu = (s.accountAbandoned k).tu
      ∧ t.op.now = max s.op.now m
      ∧ t.op = (State.raise (State.accountAbandoned (s.setNow (max s.op.now m)) k) .ticketExpired
          [n, k.clerk, optionSubject k.queueNumber, k.total]).op := by
  obtain ⟨-, hn⟩ := State.ticketOf_mem hk
  obtain ⟨hremoved, htu, hop⟩ := State.abandon_removed (s := s) (t := s.reach m) rfl rfl rfl k
  have hraise : Changes [.op] ((s.reach m).abandon k) ((s.reach m).expiryExpired k) :=
    State.raise_changes _ _ (Changes.refl _ _) rfl
  have hport : ((s.reach m).expiryExpired k).op = (State.raise (State.accountAbandoned (s.setNow (max s.op.now m)) k)
      .ticketExpired [n, k.clerk, optionSubject k.queueNumber, k.total]).op := by
    rw [← hn]
    exact State.raise_op_congr hop _ _
  refine ⟨_, State.exec_expiryDeadline hr hk hs, hremoved.then_changes hraise (by decide) (by decide),
    (hraise.same .tu rfl).trans htu, ?_, hport⟩
  rw [hport, State.raise_now]
  exact State.account_now ..

/-! ## SKIP (R152, R153, R156) -/

theorem skippable_none {k : Ticket} (h : (∀ m, k.state ≠ .opened m) ∨ k.queueNumber = none ∨ k.items ≠ []) :
    skippable k = none := by
  unfold skippable
  split
  · rename_i m hs hi
    rcases h with h | h | h
    · exact absurd hs (h m)
    · exact h
    · exact absurd hi h
  · rfl

theorem skippable_some {k : Ticket} {m q : Nat} (hs : k.state = .opened m) (hi : k.items = []) (hq : k.queueNumber = some q) :
    skippable k = some q := by
  unfold skippable
  rw [hs, hi, ← hq]

/-- A number that the now-serving list does not name leaves it as it is. -/
theorem dropServing_eq_self {q : Nat} {l : List (Nat × Nat)} : dropServing q l = l ↔ ∀ e ∈ l, e.1 ≠ q := by
  simp [dropServing, List.filter_eq_self]

section
variable {s : State} {a c q : Nat} {k : Ticket}

theorem State.exec_skip (h : s.takes a) : exec (.skip a) s = .next ((s.markTaken a).takeSkip a) :=
  congrArg _ (State.deliverAction_takes h _)

theorem State.takeSkip_noClerk (h : s.clerkAt a = none) : s.takeSkip a = s.reply a 20 .noClerk [] := by
  unfold State.takeSkip
  rw [h]

theorem State.takeSkip_proof (hc : s.clerkAt a = some c) (hp : (s.station a).state = .proof) :
    s.takeSkip a = s.reply a 20 .proofOnly [] := by
  unfold State.takeSkip
  simp only [hc, if_pos hp]

theorem State.takeSkip_wrongState (h : s.mans a c) (hk : ∀ k, s.activeOf c = some k → skippable k = none) :
    s.takeSkip a = s.reply a 20 .wrongState [] := by
  unfold State.takeSkip
  simp only [h.1, if_neg h.2]
  cases ha : s.activeOf c with
  | none => rfl
  | some k => simp only [hk k ha]

theorem State.takeSkip_carries (h : s.mans a c) (hk : s.activeOf c = some k) (hq : skippable k = some q) :
    s.takeSkip a = s.carrySkip a k q := by
  unfold State.takeSkip
  simp only [h.1, if_neg h.2, hk, hq]

/-- The state of a SKIP before its REPLY: the ticket gone without accounting, its number off the now-serving list, and a
CALLOUT offered where the list has changed. -/
def State.skipped (s : State) (k : Ticket) (q : Nat) : State :=
  let u := s.removeTicket k
  if dropServing q s.qc.serving = s.qc.serving then u else (u.setServing (dropServing q s.qc.serving)).offerCallout

theorem State.removeTicket_qc (s : State) (k : Ticket) : (s.removeTicket k).qc = s.qc :=
  (s.removeTicket_changes' k).same .qc rfl

theorem State.carrySkip_eq (s : State) (a : Nat) (k : Ticket) (q : Nat) :
    s.carrySkip a k q = (s.skipped k q).reply a 20 .ok (chars 2 k.number ++ chars 1 q) := by
  unfold State.carrySkip State.skipped
  dsimp only
  rw [State.removeTicket_qc]

theorem State.skipped_unnamed (h : ∀ e ∈ s.qc.serving, e.1 ≠ q) : s.skipped k q = s.removeTicket k :=
  if_pos (dropServing_eq_self.mpr h)

theorem State.skipped_named (h : ∃ e ∈ s.qc.serving, e.1 = q) : s.skipped k q =
    ((s.removeTicket k).setServing (dropServing q s.qc.serving)).offerCallout := by
  refine if_neg (fun hsame => ?_)
  obtain ⟨e, he, heq⟩ := h
  exact dropServing_eq_self.mp hsame e he heq

theorem State.skipped_changes (s : State) (k : Ticket) (q : Nat) : Changes [.qc, .lc] (s.removeTicket k) (s.skipped k q) := by
  unfold State.skipped
  dsimp only
  split
  · exact Changes.refl _ _
  · exact State.offerCallout_changes (State.setServing_changes _ (Changes.refl _ _) rfl) rfl

theorem State.setServing_qc (s : State) (l) : (s.setServing l).qc = { s.qc with serving := l } := rfl

theorem State.skipped_qc (s : State) (k : Ticket) (q : Nat) :
    (s.skipped k q).qc = { s.qc with serving := dropServing q s.qc.serving } := by
  unfold State.skipped
  dsimp only
  split
  · rename_i hsame
    rw [State.removeTicket_qc, hsame]
  · rw [State.offerCallout_qc, State.setServing_qc, State.removeTicket_qc]

/-- SKIP offers the display a CALLOUT at most, and no other station anything. -/
theorem State.skipped_station (s : State) (k : Ticket) (q : Nat) {b : Nat} (hb : b ≠ 18) :
    (s.skipped k q).station b = s.station b := by
  have hremove := (s.removeTicket_changes' k).same .lc rfl
  unfold State.skipped
  dsimp only
  split
  · exact State.station_of_lc hremove b
  · exact ((State.offerCallout_offers _).only.1 b hb).trans (State.station_of_lc hremove b)

variable (h : s.takes a)
include h

theorem State.takes_notDisplay : a ≠ 18 := by
  obtain ⟨⟨hscale, -, -⟩, -⟩ := h
  have := (isScale_iff.mp hscale).2
  omega

/-- SKIP of an OPEN ticket without an item. -/
theorem State.skip_removes {m : Nat} (hm : s.mans a c) (hk : s.activeOf c = some k) (hs : k.state = .opened m)
    (hi : k.items = []) (hq : k.queueNumber = some q) :
    ∃ t, exec (.skip a) s = .next t ∧ t.answered a 20 .ok (chars 2 k.number ++ chars 1 q) ∧ s.removed t k ∧ t.tu = s.tu
      ∧ t.qc = { s.qc with serving := dropServing q s.qc.serving }
      ∧ ((∃ e ∈ s.qc.serving, e.1 = q) → s.CalloutOffered t)
      ∧ ((∀ e ∈ s.qc.serving, e.1 ≠ q) → t.station 18 = s.station 18) := by
  have htake := (State.takeSkip_carries (State.markTaken_mans hm) (k := k) hk (skippable_some hs hi hq)).trans
    (State.carrySkip_eq ..)
  have ha := State.takes_notDisplay h
  obtain ⟨hserving, hroom⟩ := State.takes_room h
  obtain ⟨v, hv⟩ : ∃ v, v = (s.markTaken a).skipped k q := ⟨_, rfl⟩
  rw [← hv] at htake
  have hskipped : Changes [.qc, .lc] ((s.markTaken a).removeTicket k) v := hv ▸ State.skipped_changes ..
  have hremove := (s.markTaken a).removeTicket_changes' k
  have hreply : Changes [.lc] v _ := State.reply_changes a 20 .ok (chars 2 k.number ++ chars 1 q) (Changes.refl _ v) rfl
  have hstation : v.station a = (s.markTaken a).station a := hv ▸ State.skipped_station _ _ _ ha
  have hdisplay : (s.markTaken a).station 18 = s.station 18 := (s.markTaken_only a).1 18 ha.symm
  have hlast := (v.reply_offers a 20 .ok (chars 2 k.number ++ chars 1 q)).only.1 18 ha.symm
  have hlc : ((s.markTaken a).removeTicket k).station 18 = s.station 18 :=
    (State.station_of_lc (hremove.same .lc rfl) 18).trans hdisplay
  refine ⟨_, (State.exec_skip h).trans (congrArg _ htake), ?_, ?_, ?_, ?_, fun hnamed => ?_, fun hnamed => ?_⟩
  · refine v.reply_answered a 20 .ok _ ?_ ?_
    · unfold State.inService
      rw [hstation]
      exact hserving
    · rw [hstation]
      unfold free
      omega
  · have hremoved := ((State.removeTicket_removed (s.markTaken a) k).congr (s := s) rfl rfl).then_changes hskipped
      (by decide) (by decide)
    exact hremoved.then_changes hreply (by decide) (by decide)
  · rw [hreply.same .tu rfl, hskipped.same .tu rfl, hremove.same .tu rfl]
    rfl
  · rw [hreply.same .qc rfl, hv, State.skipped_qc]
    rfl
  · have hcallout := State.skipped_named (s := s.markTaken a) (k := k) hnamed
    rw [← hv] at hcallout
    have hoffered := State.offerCallout_offered (((s.markTaken a).removeTicket k).setServing (dropServing q (s.markTaken a).qc.serving))
    rw [← hcallout] at hoffered
    exact hoffered.congr hlc.symm (hreply.same .qc rfl) hlast
  · rw [hlast, hv, State.skipped_unnamed (s := s.markTaken a) hnamed, hlc]

end

/-- Settles O33. -/
theorem ticketsLeave : Obligations.TicketsLeave := by
  refine ⟨fun s a c k h hm hk => ⟨fun ho => ?_, fun ho => ?_⟩, fun s a h => ⟨fun hc => ⟨?_, ?_⟩, fun c hc => ⟨?_, fun k hk ho hp => ?_,
    fun hp => ?_, fun hp hk => ?_⟩⟩, fun s n hr h1 h2 hk => ?_, fun s n k hr h1 h2 hk => ⟨fun hj => ?_, fun hj => ?_⟩,
    fun s n m k hr hk hs => State.expiryDeadline_removes hr hk hs,
    fun s a c q m k h hm hk hs hi hq => State.skip_removes h hm hk hs hi hq⟩
  · exact State.voidTicket_removes h hm hk (openOrHeld_iff.mpr ho)
  · refine State.voidTicket_wrongState h hm.1 (fun x hx => ?_)
    obtain rfl : k = x := Option.some.inj (hk.symm.trans hx)
    rw [Bool.eq_false_iff, Ne, openOrHeld_iff]
    exact ho
  · exact (State.exec_voidTicket h).trans (congrArg _ (State.takeVoidTicket_noClerk (s := s.markTaken a) hc))
  · exact (State.exec_skip h).trans (congrArg _ (State.takeSkip_noClerk (s := s.markTaken a) hc))
  · exact State.voidTicket_wrongState h hc
  · exact (State.exec_voidTicket h).trans (congrArg _ (State.takeVoidTicket_proof (s := s.markTaken a) hc
      (State.openActive_some hk ho) (by rw [State.markTaken_state]; exact hp)))
  · exact (State.exec_skip h).trans (congrArg _ (State.takeSkip_proof (s := s.markTaken a) hc
      (by rw [State.markTaken_state]; exact hp)))
  · exact (State.exec_skip h).trans (congrArg _ (State.takeSkip_wrongState (State.markTaken_mans ⟨hc, hp⟩)
      (fun k hactive => skippable_none (hk k hactive))))
  · exact State.exec_tktCancel hr (State.tktCancel_none h1 h2 hk)
  · have hrun := State.tktCancel_ticket h1 h2 hk
    rw [if_pos (isPrinting_iff.mpr hj)] at hrun
    exact State.exec_tktCancel hr hrun
  · have hrun := State.tktCancel_ticket h1 h2 hk
    rw [if_neg (fun hp => by obtain ⟨job, hjob⟩ := isPrinting_iff.mp hp; exact hj job hjob)] at hrun
    exact State.tktCancel_removes hr hrun

end Sys2Proof.Machine
end

section
/-! Deadlines that expire: the idle deadline of an OPEN ticket and the residency deadline of the rush level (R120, R126, R130,
R153, R157, R158). -/

namespace Sys2Proof.Machine

/-! ## The idle deadline (R126) -/

section
variable {s : State} {n m : Nat} {k : Ticket}

theorem State.exec_idleDeadline (hr : s.op.resetLow = false) (hk : s.ticketOf n = some k) (hs : k.state = .opened m) :
    exec (.idleDeadlineExpiry n) s = .next ((s.reach m).park k) := by
  have hdeadline : s.deadlineOf (.idle n) = some m := by simp [State.deadlineOf, hk, idleMoment, hs]
  have hreached : (s.reach m).ticketOf n = some k := hk
  show Host.Outcome.next (s.deadlineRow (.idle n)) = _
  rw [State.deadlineRow_taken hr hdeadline]
  simp only [State.takeDeadline, hreached, State.idleExpired]

theorem State.park_tickets (s : State) (k : Ticket) :
    (s.park k).sc.tickets = replaceTicket { k with state := .parked s.parkDeadline } s.sc.tickets :=
  State.deactivate_tickets ..

/-- The clerk of a ticket that parks has it active no longer; no other clerk changes. -/
theorem State.park_clerk (s : State) (k : Ticket) :
    ((s.clerk k.clerk).active = some k.number → ((s.park k).clerk k.clerk).active = none)
    ∧ ∀ c, c ≠ k.clerk → (s.park k).clerk c = s.clerk c :=
  State.deactivate_clerk (s.putTicket { k with state := .parked s.parkDeadline }) { k with state := .parked s.parkDeadline }

theorem State.idleDeadline_parks (hr : s.op.resetLow = false) (hk : s.ticketOf n = some k) (hs : k.state = .opened m) :
    ∃ t, exec (.idleDeadlineExpiry n) s = .next t ∧ t.op = { s.op with now := max s.op.now m }
      ∧ t.sc.tickets = s.sc.tickets.map (fun x => if x.number = n then
          { k with state := .parked (moment (max s.op.now m) (1000 * s.op.settings.parkExpiry)) } else x)
      ∧ ((s.clerk k.clerk).active = some n → (t.clerk k.clerk).active = none)
      ∧ (∀ c, c ≠ k.clerk → t.clerk c = s.clerk c) ∧ t.lc = s.lc ∧ Changes [.sc, .we, .op] s t := by
  obtain ⟨-, rfl⟩ := State.ticketOf_mem hk
  have hreach : Changes [.op] s (s.reach m) := State.reach_changes m (Changes.refl _ s) rfl
  have hpark : Changes [.sc, .we] (s.reach m) ((s.reach m).park k) := State.park_changes k (Changes.refl _ _) rfl
  obtain ⟨hown, hothers⟩ := (s.reach m).park_clerk k
  exact ⟨_, State.exec_idleDeadline hr hk hs, hpark.same .op rfl, State.park_tickets .., hown, hothers, hpark.same .lc rfl,
    (hreach.grow (by decide)).trans (hpark.grow (by decide))⟩

end

/-! ## The residency deadline (R157) -/

/-- What placing a notice leaves of the notices depends on the FIFO, the overflow mark, the clock and the trigger level. -/
theorem OfficePort.place_sameNotices {p q : OfficePort} (h : p.sameNotices q) (hc : p.clock = q.clock)
    (hs : p.settings = q.settings) (kind : NoticeKind) (l : List Nat) :
    (p.place kind l).sameNotices (q.place kind l) := by
  obtain ⟨hfifo, hover, hirq⟩ := h
  unfold OfficePort.sameNotices OfficePort.place OfficePort.evalIrq irqLevel
  rw [hover, hfifo, hc]
  split
  · exact ⟨hfifo, hover, by simp only [hfifo, hover, hs]⟩
  · split
    · exact ⟨rfl, rfl, by simp only [hs]⟩
    · exact ⟨rfl, rfl, by simp only [hs]⟩

theorem State.recompute_frame (s : State) (l : List Ticket) : Changes [.sc, .we] s (s.recompute l) :=
  State.recompute_changes l (Changes.refl _ s) rfl

theorem State.changeLevel_qc (s : State) (level : RushLevel) : (s.changeLevel level).qc = (s.enterLevel level).qc :=
  ((s.enterLevel level).recompute_frame _).same .qc rfl

theorem State.changeLevel_op (s : State) (level : RushLevel) :
    (s.changeLevel level).op = (s.raise (levelNotice level) [levelCode level, s.qc.waiting.length]).op :=
  State.raise_op_congr (((s.enterLevel level).recompute_frame _).same .op rfl) _ _

theorem State.changeLevel_lc (s : State) (level : RushLevel) : (s.changeLevel level).lc = s.lc :=
  ((s.enterLevel level).recompute_frame _).same .lc rfl

/-- The state in which the condition of R157 is examined when the residency deadline expires. -/
def State.resided (s : State) : State :=
  { s.reach s.qc.residency with qc := { s.qc with residencyPending := false } }

/-- The condition of R157 once the residency deadline has been reached. -/
def State.rushTurns (s : State) : Prop :=
  (s.qc.level = .normal ∧ s.op.settings.rushThreshold ≤ s.qc.waiting.length)
    ∨ (s.qc.level = .rush ∧ s.qc.waiting.length ≤ s.op.settings.calmThreshold)

section
variable {s : State}

theorem State.resided_rushCondition : s.resided.rushCondition = true ↔ s.rushTurns := by
  have hreached : s.qc.residency ≤ max s.op.now s.qc.residency := Nat.le_max_right ..
  unfold State.rushCondition State.rushTurns State.resided State.reach State.setNow
  dsimp only
  rw [decide_eq_true hreached, Bool.true_and]
  cases s.qc.level <;> simp

theorem State.resided_raise (kind : NoticeKind) (l : List Nat) :
    (s.resided.raise kind l).op.sameNotices (s.raise kind l).op :=
  OfficePort.place_sameNotices (p := s.resided.op) (q := s.op) ⟨rfl, rfl, rfl⟩ rfl rfl kind l

variable (hr : s.op.resetLow = false) (hp : s.qc.residencyPending = true)
include hr hp

theorem State.exec_residency : exec .residencyExpiry s = .next
    (if s.resided.rushCondition then (s.resided.changeLevel (otherLevel s.qc.level)).offerCallout else s.resided) := by
  have hdeadline : s.deadlineOf .residency = some s.qc.residency := if_pos hp
  show Host.Outcome.next (s.deadlineRow .residency) = _
  rw [State.deadlineRow_taken hr hdeadline]
  rfl

theorem State.residency_stays (h : ¬ s.rushTurns) : exec .residencyExpiry s = .next s.resided := by
  rw [State.exec_residency hr hp, if_neg (mt State.resided_rushCondition.mp h)]

/-- Where the condition holds, the other level is entered, with its notice and one CALLOUT. -/
theorem State.residency_turns (h : s.rushTurns) :
    ∃ t, exec .residencyExpiry s = .next t ∧ t.qc = (s.resided.enterLevel (otherLevel s.qc.level)).qc
      ∧ t.op = ((s.setNow (max s.op.now s.qc.residency)).raise (levelNotice (otherLevel s.qc.level))
          [levelCode (otherLevel s.qc.level), s.qc.waiting.length]).op
      ∧ (s.numbersSound → s.LevelTurned t (max s.op.now s.qc.residency) s.qc.waiting.length s.ticketOf s.clerk)
      ∧ s.CalloutOffered t := by
  obtain ⟨u, hu⟩ : ∃ u, u = s.resided.changeLevel (otherLevel s.qc.level) := ⟨_, rfl⟩
  have hexec : exec .residencyExpiry s = .next u.offerCallout := by
    rw [State.exec_residency hr hp, if_pos (State.resided_rushCondition.mpr h), hu]
  have hoffer : Changes [.lc] u u.offerCallout := State.offerCallout_changes (Changes.refl _ u) rfl
  have hstation : u.station 18 = s.station 18 := State.station_of_lc (hu ▸ State.changeLevel_lc ..) 18
  refine ⟨_, hexec, ?_, ?_, fun hn => ?_, u.offerCallout_offered.congr hstation.symm rfl rfl⟩
  · rw [State.offerCallout_qc, hu, State.changeLevel_qc]
  · rw [hoffer.same .op rfl, hu]
    exact State.changeLevel_op ..
  · have hturned := (State.changeLevel_turned (s := s) (z := s.resided) rfl rfl hn.1 (fun _ _ => State.resided_raise _ _)).1
    exact (hu ▸ hturned).congr hoffer

end

theorem otherLevel_eq (v : RushLevel) : otherLevel v = if v = .normal then .rush else .normal := by
  cases v <;> rfl

theorem levelNotice_eq (v : RushLevel) : levelNotice v = if v = .rush then .rushOn else .rushOff := by
  cases v <;> rfl

theorem State.residencyMinimum_eq (s : State) (v : RushLevel) : s.residencyMinimum v =
    1000 * (if v = .rush then s.op.settings.residencyRush else s.op.settings.residencyNormal) := by
  cases v <;> rfl

/-- Settles O60. -/
theorem deadlinesExpire : Obligations.DeadlinesExpire := by
  refine ⟨fun s n m k hr hk hs => State.idleDeadline_parks hr hk hs, fun s hr hp => ?_⟩
  dsimp only
  refine ⟨State.residency_stays hr hp, fun h => ?_⟩
  obtain ⟨t, hexec, hqc, hop, hturned, hcallout⟩ := State.residency_turns hr hp h
  rw [levelNotice_eq] at hop
  rw [← otherLevel_eq, ← State.residencyMinimum_eq]
  exact ⟨t, hexec, congrArg (·.level) hqc, congrArg (·.entered) hqc, congrArg (·.residency) hqc,
    congrArg (·.residencyPending) hqc, congrArg (·.waiting) hqc, congrArg (·.serving) hqc, hop, hturned, hcallout⟩

end Sys2Proof.Machine
end

section
/-! Clerks that move: LOGIN, LOGOUT and CLK.REMOVE, with the pins that their logouts release (R46, R97, R100, R110, R112,
R113). -/

namespace Sys2Proof.Machine

/-! ## A logout at which the pin is released (R97, R113) -/

theorem State.mirror_channel (s : State) (a : Nat) (x y : Option Nat) (b : Nat) : (s.mirror a x y).channel b =
    if b = a then { s.channel a with ctx := { (s.channel a).ctx with clerk := x, activeTicket := y } } else s.channel b :=
  State.channel_setChannel s a b _

theorem State.mirror_pin (s : State) (a : Nat) (x y : Option Nat) (b : Nat) :
    ((s.mirror a x y).channel b).ctx.pin = (s.channel b).ctx.pin := by
  rw [State.mirror_channel]
  split
  · rename_i hb
    rw [hb]
  · rfl

/-- The release of a pin keeps the clerk and the active ticket of every service context. -/
theorem State.releasePin_ctx (s : State) (a b : Nat) :
    ((s.releasePin a).channel b).ctx.clerk = (s.channel b).ctx.clerk
    ∧ ((s.releasePin a).channel b).ctx.activeTicket = (s.channel b).ctx.activeTicket := by
  rw [State.releasePin_channel]
  split
  · rename_i hb
    rw [judged_ctx, hb.1]
    exact ⟨rfl, rfl⟩
  · exact ⟨rfl, rfl⟩

section
variable {s : State} {a b c d : Nat}

theorem State.logoutRelease_none (h : s.clerkAt a = none) : s.logoutRelease a = s := by
  unfold State.logoutRelease
  rw [h]

theorem State.logoutTouches_none (h : s.clerkAt a = none) : s.logoutTouches a = [] := by
  unfold State.logoutTouches
  rw [h]

theorem State.logoutRelease_some (h : s.clerkAt a = some d) : s.logoutRelease a = (s.logoutScale a).releasePin a := by
  unfold State.logoutRelease
  rw [h]

theorem State.logoutTouches_pinned (h : s.clerkAt a = some d) {p : Snapshot} (hp : (s.channel a).ctx.pin = some p) :
    s.logoutTouches a = [p.number] := by
  simp [State.logoutTouches, h, State.unpinTouches, State.pinned, hp]

theorem State.logoutScale_none (h : s.clerkAt a = none) : s.logoutScale a = s := by
  unfold State.logoutScale
  rw [h]

theorem State.logoutScale_some (h : s.clerkAt a = some d) :
    s.logoutScale a = (s.setClerk d { s.clerk d with scale := none }).mirror a none none := by
  unfold State.logoutScale
  rw [h]

theorem State.logoutScale_clerkAt (s : State) (a : Nat) : (s.logoutScale a).clerkAt a = none := by
  cases h : s.clerkAt a with
  | none => rwa [State.logoutScale_none h]
  | some d =>
    unfold State.clerkAt
    rw [State.logoutScale_some h, State.mirror_channel, if_pos rfl]

theorem State.logoutScale_activeTicket (h : s.clerkAt a = some d) :
    ((s.logoutScale a).channel a).ctx.activeTicket = none := by
  rw [State.logoutScale_some h, State.mirror_channel, if_pos rfl]

theorem State.logoutScale_frame (s : State) (a : Nat) : Changes [.sc, .we] s (s.logoutScale a) :=
  State.logoutScale_changes a (Changes.refl _ s) rfl

theorem State.releasePin_frame (s : State) (a : Nat) : Changes [.we, .art, .lc] s (s.releasePin a) :=
  State.releasePin_changes a (Changes.refl _ s) rfl

theorem State.logoutRelease_frame (s : State) (a : Nat) : Changes [.sc, .we, .art, .lc] s (s.logoutRelease a) :=
  State.logoutRelease_changes a (Changes.refl _ s) rfl

theorem State.logoutRelease_sc (s : State) (a : Nat) : (s.logoutRelease a).sc = (s.logoutScale a).sc := by
  cases h : s.clerkAt a with
  | none => rw [State.logoutRelease_none h, State.logoutScale_none h]
  | some d => rw [State.logoutRelease_some h, ((s.logoutScale a).releasePin_frame a).same .sc rfl]

theorem State.logoutRelease_tickets (s : State) (a : Nat) : (s.logoutRelease a).sc.tickets = s.sc.tickets := by
  rw [State.logoutRelease_sc]
  exact (s.logoutScale_records a).1

theorem State.logoutRelease_clerk (s : State) (a c : Nat) : (s.logoutRelease a).clerk c =
    if s.clerkAt a = some c then { s.clerk c with scale := none } else s.clerk c := by
  rw [State.clerk_of_sc (s.logoutRelease_sc a), State.logoutScale_clerk]

/-- A logout changes nothing of a clerk's record but the scale. -/
theorem State.logoutRelease_clerk_scale (s : State) (a c : Nat) (x : Option Nat) :
    { (s.logoutRelease a).clerk c with scale := x } = { s.clerk c with scale := x } := by
  rw [State.logoutRelease_clerk]
  split <;> rfl

theorem State.logoutRelease_channel_ne (s : State) (h : b ≠ a) : (s.logoutRelease a).channel b = s.channel b := by
  cases hd : s.clerkAt a with
  | none => rw [State.logoutRelease_none hd]
  | some d =>
    rw [State.logoutRelease_some hd, State.releasePin_channel, if_neg (fun g => h g.1)]
    exact (s.logoutScale_channel a).2.2 b h

theorem State.logoutRelease_clerkAt_ne (s : State) (h : b ≠ a) : (s.logoutRelease a).clerkAt b = s.clerkAt b := by
  unfold State.clerkAt
  rw [State.logoutRelease_channel_ne s h]

theorem State.logoutRelease_clerkAt (s : State) (a : Nat) : (s.logoutRelease a).clerkAt a = none := by
  cases hd : s.clerkAt a with
  | none => rwa [State.logoutRelease_none hd]
  | some d =>
    rw [State.logoutRelease_some hd]
    exact ((s.logoutScale a).releasePin_ctx a a).1.trans (s.logoutScale_clerkAt a)

/-- After the logout of a clerk the service context holds no active ticket and no pin (R46, R113). -/
theorem State.logoutRelease_ctx (h : s.clerkAt a = some d) : ((s.logoutRelease a).channel a).ctx.activeTicket = none
    ∧ ((s.logoutRelease a).channel a).ctx.pin = none := by
  rw [State.logoutRelease_some h]
  exact ⟨((s.logoutScale a).releasePin_ctx a a).2.trans (State.logoutScale_activeTicket h),
    (s.logoutScale a).releasePin_pin a⟩

/-- A logout offers its own scale a SHOW at most. -/
theorem State.logoutRelease_offers (s : State) (a : Nat) : Offers a 1 s (s.logoutRelease a) := by
  cases hd : s.clerkAt a with
  | none =>
    rw [State.logoutRelease_none hd]
    exact (Offers.refl a s).mono (by omega)
  | some d =>
    rw [State.logoutRelease_some hd]
    exact ((Offers.of_lc ((s.logoutScale_frame a).same .lc rfl)).trans (State.releasePin_offers _ a)).mono (by omega)

/-- Every event whose only logout is that of scale a, and whose other changes leave the articles, the changes in flight,
the notices and the pins, ends the pin of scale a with the settle check of its article. -/
theorem State.logoutRelease_pinEnded {x : State} {p : Snapshot} (hd : s.clerkAt a = some d)
    (hp : (s.channel a).ctx.pin = some p) (hx : Changes [.sc, .we, .lc] (s.logoutRelease a) x)
    (hpins : ∀ b, (x.channel b).ctx.pin = ((s.logoutRelease a).channel b).ctx.pin) :
    s.PinEnded (x.finish [p.number]) (x.finish [p.number]).op a p.number ((s.article p.number).withoutPin a) := by
  have hframe := s.logoutRelease_frame a
  have hpinned : (s.logoutScale a).pinned a = some p.number := by
    simp [State.pinned, (s.logoutScale_channel a).2.1, hp]
  have harticle : (s.logoutScale a).article p.number = s.article p.number :=
    State.article_of_art ((s.logoutScale_frame a).same .art rfl) _
  refine State.finish_pinEnded ?_ ?_ ?_ (fun b hb => ?_) (fun b hb => ?_) (fun c _ hmem => ?_)
  · rw [State.article_of_art (hx.same .art rfl), State.logoutRelease_some hd, State.releasePin_article, if_pos hpinned,
      harticle]
    rfl
  · rw [hx.same .cd rfl, hframe.same .cd rfl]
  · rw [hx.same .op rfl, hframe.same .op rfl]
  · simp [Article.withoutPin, hb]
  · rw [hpins, State.logoutRelease_channel_ne s hb]
  · obtain ⟨-, q, hq, -⟩ := State.mem_oldPins.mp hmem
    rw [hpins, (State.logoutRelease_ctx hd).2] at hq
    cases hq

end

/-- What a pin's end leaves does not read the Line Controller before it. -/
theorem State.PinEnded.of_markTaken {s t : State} {port : OfficePort} {a b n : Nat} {left : Article}
    (h : (s.markTaken a).PinEnded t port b n left) : s.PinEnded t port b n left :=
  h.congr rfl rfl (fun _ _ => rfl) rfl rfl

/-- It reads nothing of the port but its notices. -/
theorem State.PinEnded.port_congr {s t : State} {port q : OfficePort} {a n : Nat} {left : Article}
    (h : s.PinEnded t port a n left) (hq : q.sameNotices port) : s.PinEnded t q a n left := by
  have trans {r : OfficePort} (g : port.sameNotices r) : q.sameNotices r :=
    ⟨hq.1.trans g.1, hq.2.1.trans g.2.1, hq.2.2.trans g.2.2⟩
  refine ⟨fun hc => ?_, fun c hc hl ho => ?_, fun c hc ho => ?_⟩
  · obtain ⟨hchange, hport, harticle⟩ := h.alone hc
    exact ⟨hchange, trans hport, harticle⟩
  · obtain ⟨hchange, hport, harticle⟩ := h.settles c hc hl ho
    exact ⟨hchange, trans hport, harticle⟩
  · obtain ⟨hchange, hport, harticle⟩ := h.stays c hc ho
    exact ⟨hchange, trans hport, harticle⟩

theorem State.PinEnded.responded {s t : State} {a n : Nat} {left : Article} (h : s.PinEnded t t.op a n left) (code : Byte)
    (result : ResultCode) (clamped : Bool) (body : List Byte) (sent : Nat) :
    s.PinEnded (t.responded code result clamped body sent) (t.responded code result clamped body sent).op a n left :=
  State.PinEnded.port_congr (port := t.op) (h.congr rfl rfl (fun _ _ => rfl) rfl rfl) ⟨rfl, rfl, rfl⟩

/-! ## LOGOUT (R113) -/

section
variable {s : State} {a c : Nat}

/-- The state after the logout and its REPLY, before the settle check. -/
def State.loggedOut (s : State) (a : Nat) : State := (s.logoutRelease a).reply a 9 .ok []

theorem State.takeLogout_eq (s : State) (a : Nat) : s.takeLogout a = (s.loggedOut a).finish (s.logoutTouches a) := rfl

theorem State.loggedOut_changes (s : State) (a : Nat) : Changes [.lc] (s.logoutRelease a) (s.loggedOut a) :=
  State.reply_changes a 9 .ok [] (Changes.refl _ _) rfl

theorem State.takeLogout_sc (s : State) (a : Nat) : (s.takeLogout a).sc = (s.logoutRelease a).sc :=
  (State.finish_sc ..).trans ((s.loggedOut_changes a).same .sc rfl)

theorem State.takeLogout_we (s : State) (a : Nat) : (s.takeLogout a).we = (s.logoutRelease a).we :=
  (State.finish_we ..).trans ((s.loggedOut_changes a).same .we rfl)

theorem State.takeLogout_lc (s : State) (a : Nat) : (s.takeLogout a).lc = (s.loggedOut a).lc := State.finish_lc ..

/-- A LOGOUT without a clerk is its REPLY alone. -/
theorem State.takeLogout_noClerk (h : s.clerkAt a = none) : Changes [.lc] s (s.takeLogout a) := by
  have hout := s.loggedOut_changes a
  have htake : s.takeLogout a = s.loggedOut a := by
    rw [State.takeLogout_eq, State.logoutTouches_none h]
    rfl
  rwa [← htake, State.logoutRelease_none h] at hout

theorem State.takeLogout_pinEnded (h : s.clerkAt a = some c) {p : Snapshot} (hp : (s.channel a).ctx.pin = some p) :
    s.PinEnded (s.takeLogout a) (s.takeLogout a).op a p.number ((s.article p.number).withoutPin a) := by
  have hout := s.loggedOut_changes a
  rw [State.takeLogout_eq, State.logoutTouches_pinned h hp]
  exact State.logoutRelease_pinEnded h hp (hout.grow (by decide))
    (fun b => by rw [State.channel_of_we (hout.same .we rfl)])

theorem State.exec_logout (h : s.takes a) : exec (.logout a) s = .next ((s.markTaken a).takeLogout a) :=
  congrArg _ (State.deliverAction_takes h _)

theorem State.logout_leaves (h : s.takes a) :
    ∃ t, exec (.logout a) s = .next t ∧ t.answered a 9 .ok [] ∧ s.took t a
      ∧ (s.clerkAt a = none → Changes [.lc] s t)
      ∧ ∀ c, s.clerkAt a = some c → t.clerk c = { s.clerk c with scale := none } ∧ t.clerkAt a = none
          ∧ (t.channel a).ctx.activeTicket = none ∧ (t.channel a).ctx.pin = none
          ∧ (∀ n, t.ticketOf n = s.ticketOf n) ∧ (∀ d, d ≠ c → t.clerk d = s.clerk d)
          ∧ ∀ p, (s.channel a).ctx.pin = some p → s.PinEnded t t.op a p.number ((s.article p.number).withoutPin a) := by
  obtain ⟨hservice, hroom⟩ := State.takes_room h
  have hrelease := (s.markTaken a).logoutRelease_offers a
  have hlc := (s.markTaken a).takeLogout_lc a
  refine ⟨_, State.exec_logout h, State.answered_of_lc hlc (hrelease.answered hservice (by omega)),
    State.took_of_offers ((hrelease.trans (State.reply_offers ..)).then_lc hlc), fun hc => ?_, fun c hc => ?_⟩
  · have hmarked : Changes [.lc] s (s.markTaken a) := State.markTaken_changes a (Changes.refl _ s) rfl
    exact hmarked.trans (State.takeLogout_noClerk (s := s.markTaken a) hc)
  have hclerk (d : Nat) : ((s.markTaken a).takeLogout a).clerk d =
      if s.clerkAt a = some d then { s.clerk d with scale := none } else s.clerk d :=
    (State.clerk_of_sc (State.takeLogout_sc ..) d).trans ((s.markTaken a).logoutRelease_clerk a d)
  have hwe := (s.markTaken a).takeLogout_we a
  obtain ⟨hactive, hpin⟩ := State.logoutRelease_ctx (s := s.markTaken a) hc
  refine ⟨(hclerk c).trans (if_pos hc), ?_, ?_, ?_, fun n => ?_, fun d hd => ?_, fun p hp => ?_⟩
  · rw [State.clerkAt_of_we hwe, State.logoutRelease_clerkAt]
  · rw [State.channel_of_we hwe, hactive]
  · rw [State.channel_of_we hwe, hpin]
  · unfold State.ticketOf
    rw [State.takeLogout_sc, State.logoutRelease_tickets]
    rfl
  · rw [hclerk, hc, if_neg (fun g => hd (Option.some.inj g).symm)]
  · exact (State.takeLogout_pinEnded (s := s.markTaken a) hc hp).of_markTaken

end

/-! ## CLK.REMOVE (R110) -/

section
variable {s : State} {a c : Nat}

theorem State.removeClerk_scale (h : (s.clerk c).scale = some a) :
    s.removeClerk c = ((s.logoutRelease a).setClerk c Clerk.powerOn).finish (s.logoutTouches a) := by
  unfold State.removeClerk
  rw [h]

theorem State.removeClerk_noScale (h : (s.clerk c).scale = none) : s.removeClerk c = s.setClerk c Clerk.powerOn := by
  unfold State.removeClerk
  rw [h]

theorem State.removeClerk_clerk (s : State) (c : Nat) : (s.removeClerk c).clerk c = Clerk.powerOn := by
  cases h : (s.clerk c).scale with
  | none => rw [State.removeClerk_noScale h, State.clerk_setClerk, if_pos rfl]
  | some a => rw [State.removeClerk_scale h, State.clerk_of_sc (State.finish_sc ..), State.clerk_setClerk, if_pos rfl]

theorem State.removeClerk_tickets (s : State) (c : Nat) : (s.removeClerk c).sc.tickets = s.sc.tickets := by
  cases h : (s.clerk c).scale with
  | none =>
    rw [State.removeClerk_noScale h]
    rfl
  | some a =>
    rw [State.removeClerk_scale h, State.finish_sc]
    exact s.logoutRelease_tickets a

/-- The scale of the clerk removed has no clerk and no pin, and the pin it had has ended. -/
theorem State.removeClerk_logsOut (h : (s.clerk c).scale = some a) (hc : s.clerkAt a = some c) :
    (s.removeClerk c).clerkAt a = none ∧ ((s.removeClerk c).channel a).ctx.pin = none
      ∧ ∀ p, (s.channel a).ctx.pin = some p →
          s.PinEnded (s.removeClerk c) (s.removeClerk c).op a p.number ((s.article p.number).withoutPin a) := by
  have hset : Changes [.sc] (s.logoutRelease a) ((s.logoutRelease a).setClerk c Clerk.powerOn) :=
    State.setClerk_changes _ _ (Changes.refl _ _) rfl
  have hwe : (s.removeClerk c).we = (s.logoutRelease a).we := by
    rw [State.removeClerk_scale h, State.finish_we]
    rfl
  refine ⟨?_, ?_, fun p hp => ?_⟩
  · rw [State.clerkAt_of_we hwe, State.logoutRelease_clerkAt]
  · rw [State.channel_of_we hwe, (State.logoutRelease_ctx hc).2]
  · rw [State.removeClerk_scale h, State.logoutTouches_pinned hc hp]
    exact State.logoutRelease_pinEnded hc hp (hset.grow (by decide)) (fun _ => rfl)

theorem State.ownedBy_eq_nil : s.ownedBy c = [] ↔ ∀ k ∈ s.sc.tickets, k.clerk ≠ c := by
  simp [State.ownedBy]

/-- CLK.REMOVE of a clerk in the range: the checks of the record, then the removal. -/
theorem State.clkRemove_eq (h1 : 1 ≤ c) (h2 : c ≤ 24) : s.clkRemove (chars 1 c) =
    if (s.clerk c).enrolled = false then (s, .refuse .notFound)
    else if s.ownedBy c ≠ [] then (s, .refuse .inUse)
    else (s.removeClerk c, .ok []) := by
  unfold State.clkRemove
  dsimp only
  rw [field_chars_eq (by omega), if_neg (by rw [chars_length]; omega)]

theorem State.exec_clkRemove {u : State} {r : Answer} (hr : s.op.resetLow = false)
    (h : s.clkRemove (chars 1 c) = (u, r)) :
    exec (.clkRemove (chars 1 c)) s = .next (u.responded 49 r.result r.clamped r.body 4) := by
  show Host.Outcome.next (s.transact 49 (chars 1 c) (fun t => t.clkRemove (chars 1 c))) = _
  rw [State.transact_responds hr (by simp) h, chars_length]

end

/-! ## LOGIN (R112) -/

section
variable {s : State} {a b c d : Nat}

/-- The state after the clerk has left the scale where it was logged in. -/
def State.leftOld (s : State) (c : Nat) : State :=
  match (s.clerk c).scale with
  | some b => s.logoutRelease b
  | none => s

/-- The articles whose pins the logouts of a LOGIN release. -/
def State.loginTouches (s : State) (a c : Nat) : List Nat :=
  (match (s.clerk c).scale with
    | some b => s.logoutTouches b
    | none => []) ++ (s.leftOld c).logoutTouches a

/-- The state after both logouts of a LOGIN. -/
def State.vacatedFor (s : State) (a c : Nat) : State := (s.leftOld c).logoutRelease a

/-- The state with the clerk logged in, before the REPLY and the settle checks. -/
def State.loggedIn (s : State) (a c : Nat) : State :=
  ((s.vacatedFor a c).setClerk c { (s.vacatedFor a c).clerk c with scale := some a }).mirror a (some c)
    ((s.vacatedFor a c).clerk c).active

theorem State.leftOld_some (h : (s.clerk c).scale = some b) : s.leftOld c = s.logoutRelease b := by
  unfold State.leftOld
  rw [h]

theorem State.leftOld_none (h : (s.clerk c).scale = none) : s.leftOld c = s := by
  unfold State.leftOld
  rw [h]

theorem State.leftOld_clerk_scale (s : State) (c d : Nat) (x : Option Nat) :
    { (s.leftOld c).clerk d with scale := x } = { s.clerk d with scale := x } := by
  cases h : (s.clerk c).scale with
  | none => rw [State.leftOld_none h]
  | some b => rw [State.leftOld_some h, State.logoutRelease_clerk_scale]

/-- The logouts of a LOGIN change nothing of a clerk's record but the scale. -/
theorem State.vacatedFor_clerk_scale (s : State) (a c d : Nat) (x : Option Nat) :
    { (s.vacatedFor a c).clerk d with scale := x } = { s.clerk d with scale := x } := by
  rw [State.vacatedFor, State.logoutRelease_clerk_scale, State.leftOld_clerk_scale]

theorem State.vacatedFor_active (s : State) (a c : Nat) : ((s.vacatedFor a c).clerk c).active = (s.clerk c).active := by
  show ({ (s.vacatedFor a c).clerk c with scale := none } : Clerk).active = _
  rw [State.vacatedFor_clerk_scale]

/-- Where the clerk comes from the same scale the second logout finds nobody. -/
theorem State.vacatedFor_same (h : (s.clerk c).scale = some a) : s.vacatedFor a c = s.logoutRelease a := by
  rw [State.vacatedFor, State.leftOld_some h, State.logoutRelease_none (s.logoutRelease_clerkAt a)]

/-- Where the clerk comes from elsewhere the first logout leaves the channel of the scale. -/
theorem State.leftOld_channel (h : (s.clerk c).scale ≠ some a) : (s.leftOld c).channel a = s.channel a := by
  cases hb : (s.clerk c).scale with
  | none => rw [State.leftOld_none hb]
  | some b =>
    rw [State.leftOld_some hb]
    exact State.logoutRelease_channel_ne s (fun hab => h (hb.trans (congrArg some hab.symm)))

/-- The clerk who was logged in at the scale is logged out, and the scale's pin released (R112, R113). -/
theorem State.vacatedFor_former (hd : s.clerkAt a = some d) :
    (s.vacatedFor a c).clerk d = { s.clerk d with scale := none } ∧ ((s.vacatedFor a c).channel a).ctx.pin = none := by
  by_cases h : (s.clerk c).scale = some a
  · rw [State.vacatedFor_same h, State.logoutRelease_clerk, if_pos hd]
    exact ⟨rfl, (State.logoutRelease_ctx hd).2⟩
  · have hleft : (s.leftOld c).clerkAt a = some d := (congrArg (·.ctx.clerk) (State.leftOld_channel h)).trans hd
    refine ⟨?_, (State.logoutRelease_ctx hleft).2⟩
    rw [State.vacatedFor, State.logoutRelease_clerk, if_pos hleft, State.leftOld_clerk_scale]

/-- The scale that the clerk leaves has no clerk, no active ticket and no pin. -/
theorem State.vacatedFor_left (hb : b ≠ a) (h : (s.clerk c).scale = some b) (hc : s.clerkAt b = some c) :
    (s.vacatedFor a c).clerkAt b = none ∧ ((s.vacatedFor a c).channel b).ctx.activeTicket = none
      ∧ ((s.vacatedFor a c).channel b).ctx.pin = none := by
  have hchannel : (s.vacatedFor a c).channel b = (s.logoutRelease b).channel b := by
    rw [State.vacatedFor, State.leftOld_some h, State.logoutRelease_channel_ne _ hb]
  unfold State.clerkAt
  rw [hchannel]
  exact ⟨s.logoutRelease_clerkAt b, State.logoutRelease_ctx hc⟩

theorem State.loggedIn_changes (s : State) (a c : Nat) : Changes [.sc, .we] (s.vacatedFor a c) (s.loggedIn a c) :=
  State.mirror_changes a _ _ (State.setClerk_changes c _ (Changes.refl _ _) rfl) rfl

theorem State.loggedIn_clerk (s : State) (a c d : Nat) : (s.loggedIn a c).clerk d =
    if d = c then { s.clerk c with scale := some a } else (s.vacatedFor a c).clerk d := by
  show ((s.vacatedFor a c).setClerk c { (s.vacatedFor a c).clerk c with scale := some a }).clerk d = _
  rw [State.clerk_setClerk, State.vacatedFor_clerk_scale]

theorem State.loggedIn_channel (s : State) (a c b : Nat) : (s.loggedIn a c).channel b =
    if b = a then { (s.vacatedFor a c).channel a with
      ctx := { ((s.vacatedFor a c).channel a).ctx with clerk := some c, activeTicket := (s.clerk c).active } }
    else (s.vacatedFor a c).channel b := by
  rw [State.loggedIn, State.vacatedFor_active, State.mirror_channel]
  rfl

theorem State.loggedIn_pin (s : State) (a c b : Nat) :
    ((s.loggedIn a c).channel b).ctx.pin = ((s.vacatedFor a c).channel b).ctx.pin :=
  State.mirror_pin ..

theorem State.carryLogin_eq (s : State) (a c : Nat) : s.carryLogin a c =
    ((s.loggedIn a c).reply a 8 .ok (chars 2 ((s.clerk c).active.getD 0))).finish (s.loginTouches a c) := by
  rw [← s.vacatedFor_active a c]
  rfl

/-- The state before the settle checks. -/
theorem State.carryLogin_before (s : State) (a c : Nat) : Changes [.lc] (s.loggedIn a c)
    ((s.loggedIn a c).reply a 8 .ok (chars 2 ((s.clerk c).active.getD 0))) :=
  State.reply_changes a 8 .ok _ (Changes.refl _ _) rfl

theorem State.carryLogin_sc (s : State) (a c : Nat) : (s.carryLogin a c).sc = (s.loggedIn a c).sc := by
  rw [State.carryLogin_eq, State.finish_sc, (s.carryLogin_before a c).same .sc rfl]

theorem State.carryLogin_we (s : State) (a c : Nat) : (s.carryLogin a c).we = (s.loggedIn a c).we := by
  rw [State.carryLogin_eq, State.finish_we, (s.carryLogin_before a c).same .we rfl]

/-- Where the two logouts are one, its pin ends. -/
theorem State.carryLogin_pinEnded {p : Snapshot} (hd : s.clerkAt b = some d) (hp : (s.channel b).ctx.pin = some p)
    (hone : s.vacatedFor a c = s.logoutRelease b) (htouch : s.loginTouches a c = [p.number]) :
    s.PinEnded (s.carryLogin a c) (s.carryLogin a c).op b p.number ((s.article p.number).withoutPin b) := by
  have hreply := s.carryLogin_before a c
  have hin := s.loggedIn_changes a c
  rw [State.carryLogin_eq, htouch]
  refine State.logoutRelease_pinEnded hd hp ?_ (fun e => ?_)
  · rw [← hone]
    exact (hin.grow (by decide)).trans (hreply.grow (by decide))
  · rw [State.channel_of_we (hreply.same .we rfl), State.loggedIn_pin, hone]

/-- Only the scale's former clerk is logged out. -/
theorem State.carryLogin_former_pinEnded {p : Snapshot} (hd : s.clerkAt a = some d) (h : (s.clerk c).scale = none)
    (hp : (s.channel a).ctx.pin = some p) :
    s.PinEnded (s.carryLogin a c) (s.carryLogin a c).op a p.number ((s.article p.number).withoutPin a) := by
  refine State.carryLogin_pinEnded hd hp (by rw [State.vacatedFor, State.leftOld_none h]) ?_
  simp only [State.loginTouches, h, State.leftOld_none h, State.logoutTouches_pinned hd hp, List.nil_append]

/-- Only the clerk itself is logged out, at the scale it leaves. -/
theorem State.carryLogin_left_pinEnded {p : Snapshot} (hb : b ≠ a) (ha : s.clerkAt a = none)
    (h : (s.clerk c).scale = some b) (hc : s.clerkAt b = some c) (hp : (s.channel b).ctx.pin = some p) :
    s.PinEnded (s.carryLogin a c) (s.carryLogin a c).op b p.number ((s.article p.number).withoutPin b) := by
  have hleft : (s.leftOld c).clerkAt a = none := by
    rw [State.leftOld_some h, State.logoutRelease_clerkAt_ne s hb.symm, ha]
  refine State.carryLogin_pinEnded hc hp ?_ ?_
  · rw [State.vacatedFor, State.logoutRelease_none hleft, State.leftOld_some h]
  · simp only [State.loginTouches, h, State.logoutTouches_none hleft, State.logoutTouches_pinned hc hp, List.append_nil]

/-! ### The REPLY -/

/-- An offer to any station uses at most its entries of each station. -/
theorem Offers.room_at {k e : Nat} {t : State} (h : Offers b k s t) :
    ordinary (t.station e).queue ≤ ordinary (s.station e).queue + k := by
  by_cases he : e = b
  · subst he
    exact h.room
  · rw [h.only.1 e he]
    omega

/-- The two logouts of a LOGIN use at most two entries of the scale. -/
theorem State.vacatedFor_room (s : State) (a c : Nat) :
    (s.vacatedFor a c).inService a = s.inService a
      ∧ ordinary ((s.vacatedFor a c).station a).queue ≤ ordinary (s.station a).queue + 2 := by
  have hsecond := (s.leftOld c).logoutRelease_offers a
  have hroom := hsecond.room
  cases h : (s.clerk c).scale with
  | none =>
    rw [State.leftOld_none h] at hsecond hroom
    rw [State.vacatedFor, State.leftOld_none h]
    exact ⟨hsecond.inService_eq a, by omega⟩
  | some b =>
    have hfirst := s.logoutRelease_offers b
    have hroom' := hfirst.room_at (e := a)
    rw [State.leftOld_some h] at hsecond hroom
    rw [State.vacatedFor, State.leftOld_some h]
    exact ⟨(hsecond.inService_eq a).trans (hfirst.inService_eq a), by omega⟩

theorem State.carryLogin_answered (hs : s.inService a = true) (hq : ordinary (s.station a).queue ≤ 5) :
    (s.carryLogin a c).answered a 8 .ok (chars 2 ((s.clerk c).active.getD 0)) := by
  obtain ⟨hservice, hroom⟩ := s.vacatedFor_room a c
  have hlc : (s.loggedIn a c).lc = (s.vacatedFor a c).lc := (s.loggedIn_changes a c).same .lc rfl
  rw [State.carryLogin_eq]
  refine State.answered_of_lc (State.finish_lc ..) (State.reply_answered _ a 8 .ok _ ?_ ?_)
  · rw [State.inService_of_lc hlc, hservice, hs]
  · rw [State.station_of_lc hlc]
    unfold free
    omega

/-! ### The checks -/

theorem State.takeLogin_refused (h : c < 1 ∨ 24 < c ∨ (s.clerk c).enrolled = false) :
    s.takeLogin a c = s.reply a 8 .noClerk [] :=
  if_pos h

theorem State.takeLogin_same (h : ¬ (c < 1 ∨ 24 < c ∨ (s.clerk c).enrolled = false)) (hc : s.clerkAt a = some c) :
    s.takeLogin a c = s.reply a 8 .ok (chars 2 ((s.clerk c).active.getD 0)) :=
  (if_neg h).trans (if_pos hc)

theorem State.takeLogin_moves (h : ¬ (c < 1 ∨ 24 < c ∨ (s.clerk c).enrolled = false)) (hc : s.clerkAt a ≠ some c) :
    s.takeLogin a c = s.carryLogin a c :=
  (if_neg h).trans (if_neg hc)

theorem State.exec_login (h : s.takes a) (c : Nat) : exec (.login a c) s = .next ((s.markTaken a).takeLogin a c) :=
  congrArg _ (State.deliverAction_takes h _)

/-- What a LOGIN that moves the clerk leaves of the clerks and the service contexts (R46, R112, R113). -/
theorem State.carryLogin_leaves (s : State) (a c : Nat) (hc : s.clerkAt a ≠ some c) :
    let t := s.carryLogin a c
    t.clerk c = { s.clerk c with scale := some a } ∧ t.clerkAt a = some c
      ∧ (t.channel a).ctx.activeTicket = (s.clerk c).active
      ∧ (∀ d, s.clerkAt a = some d → t.clerk d = { s.clerk d with scale := none } ∧ (t.channel a).ctx.pin = none)
      ∧ (∀ b, b ≠ a → (s.clerk c).scale = some b → s.clerkAt b = some c →
          t.clerkAt b = none ∧ (t.channel b).ctx.activeTicket = none ∧ (t.channel b).ctx.pin = none) := by
  dsimp only
  have hclerk (d : Nat) := (State.clerk_of_sc (s.carryLogin_sc a c) d).trans (s.loggedIn_clerk a c d)
  have hchannel (b : Nat) := (State.channel_of_we (s.carryLogin_we a c) b).trans (s.loggedIn_channel a c b)
  refine ⟨(hclerk c).trans (if_pos rfl), ?_, ?_, fun d hd => ?_, fun b hb hold hat => ?_⟩
  · unfold State.clerkAt
    rw [hchannel, if_pos rfl]
  · rw [hchannel, if_pos rfl]
  · obtain ⟨hformer, hpin⟩ := State.vacatedFor_former (c := c) hd
    rw [hclerk, if_neg (fun hdc => hc (hd.trans (congrArg some hdc))), hchannel, if_pos rfl]
    exact ⟨hformer, hpin⟩
  · unfold State.clerkAt
    rw [hchannel, if_neg hb]
    exact State.vacatedFor_left hb hold hat

end

/-- Settles O32. -/
theorem clerksMove : Obligations.ClerksMove := by
  refine ⟨fun s a c h => ⟨fun hbad => ?_, fun h1 h2 he => ?_⟩, fun s a h => State.logout_leaves h, fun s c hr h1 h2 => ?_⟩
  · exact (State.exec_login h c).trans (congrArg _ (State.takeLogin_refused (s := s.markTaken a) hbad))
  · have hgood : ¬ (c < 1 ∨ 24 < c ∨ (s.clerk c).enrolled = false) := by
      rw [he]
      simp only [Bool.true_eq_false, or_false]
      omega
    obtain ⟨hservice, hroom⟩ := State.takes_room h
    by_cases hc : s.clerkAt a = some c
    · have hrun := (State.exec_login h c).trans (congrArg _ (State.takeLogin_same (s := s.markTaken a) hgood hc))
      have hmarked : Changes [.lc] s (s.markTaken a) := State.markTaken_changes a (Changes.refl _ s) rfl
      obtain ⟨hanswered, htook⟩ := State.reply_after h (Changes.refl [] _) (by decide) 8 .ok
        (chars 2 ((s.clerk c).active.getD 0))
      exact ⟨_, hrun, hanswered, fun _ => ⟨htook, State.reply_changes _ _ _ _ hmarked rfl⟩, fun hne => absurd hc hne⟩
    · have hrun := (State.exec_login h c).trans (congrArg _ (State.takeLogin_moves (s := s.markTaken a) hgood hc))
      obtain ⟨hclerk, hat, hactive, hformer, hleft⟩ := (s.markTaken a).carryLogin_leaves a c hc
      exact ⟨_, hrun, State.carryLogin_answered hservice hroom, fun heq => absurd heq hc, fun _ =>
        ⟨hclerk, hat, hactive, hformer, hleft,
          fun d p hd hold hp => (State.carryLogin_former_pinEnded (s := s.markTaken a) hd hold hp).of_markTaken,
          fun b p ha hb hold hatb hp =>
            (State.carryLogin_left_pinEnded (s := s.markTaken a) hb ha hold hatb hp).of_markTaken⟩⟩
  · have hrun := State.clkRemove_eq (s := s) h1 h2
    refine ⟨fun he => ?_, fun he ⟨k, hk, hown⟩ => ?_, fun he hnone => ?_⟩
    · rw [if_pos he] at hrun
      exact State.exec_clkRemove hr hrun
    · rw [if_neg (by simp [he]), if_pos (fun hnil => State.ownedBy_eq_nil.mp hnil k hk hown)] at hrun
      exact State.exec_clkRemove hr hrun
    · rw [if_neg (by simp [he]), if_neg (not_not.mpr (State.ownedBy_eq_nil.mpr hnone))] at hrun
      refine ⟨_, State.exec_clkRemove hr hrun, s.removeClerk_clerk c, s.removeClerk_tickets c, rfl, fun a hscale hat => ?_⟩
      obtain ⟨hclerk, hpin, hended⟩ := State.removeClerk_logsOut hscale hat
      exact ⟨hclerk, hpin, fun p hp => (hended p hp).responded ..⟩

end Sys2Proof.Machine
end

section
/-! Job tags: which tags are in use, and the first free one (R135). -/

namespace Sys2Proof.Machine

theorem holdsTag_iff {a tag : Nat} {k : Ticket} :
    holdsTag a tag k = true ↔ ∃ m, k.state = .printing { scale := a, tag := tag, deadline := m } := by
  unfold holdsTag
  cases k.state with
  | printing job => cases job; simp
  | opened | held | parked | printWait => simp

theorem State.tagFree_false_iff {s : State} {a tag : Nat} : s.tagFree a tag = false ↔
    (s.printRecord a).lastProof = some tag
      ∨ ∃ k ∈ s.sc.tickets, ∃ m, k.state = .printing { scale := a, tag := tag, deadline := m } := by
  unfold State.tagFree
  rw [Bool.and_eq_false_iff, Bool.not_eq_false', List.any_eq_true, bne_eq_false_iff_eq, or_comm]
  simp only [holdsTag_iff]

/-- The job tag that a ticket in PRINTING holds at its scale. -/
def Ticket.jobTag (k : Ticket) : Option Nat :=
  match k.state with
  | .printing job => some job.tag
  | .opened _ => none
  | .held => none
  | .parked _ => none
  | .printWait => none

/-- The last proof tag of a scale, and the tags of all jobs: every tag of the scale that is not free stands here. -/
def State.tagsInUse (s : State) (a : Nat) : List Nat :=
  (s.printRecord a).lastProof.toList ++ s.sc.tickets.filterMap Ticket.jobTag

theorem State.mem_tagsInUse {s : State} {a tag : Nat} (h : s.tagFree a tag = false) : tag ∈ s.tagsInUse a := by
  unfold State.tagsInUse
  rw [List.mem_append]
  rcases State.tagFree_false_iff.mp h with hproof | ⟨k, hk, m, hm⟩
  · exact .inl (by simp [hproof])
  · exact .inr (List.mem_filterMap.mpr ⟨k, hk, by simp [Ticket.jobTag, hm]⟩)

theorem State.tagsInUse_length (s : State) (a : Nat) : (s.tagsInUse a).length ≤ s.sc.tickets.length + 1 := by
  have hjobs := List.length_filterMap_le Ticket.jobTag s.sc.tickets
  have hproof : (s.printRecord a).lastProof.toList.length ≤ 1 := by cases (s.printRecord a).lastProof <;> simp
  unfold State.tagsInUse
  rw [List.length_append]
  omega

/-- The 256 tags from a start, wrapping from 255 to 0, are distinct. -/
theorem tagsFrom_nodup (start : Nat) : ((List.range 256).map (fun i => (start + i) % 256)).Nodup := by
  refine List.Nodup.map_on (fun i hi j hj hij => ?_) List.nodup_range
  rw [List.mem_range] at hi hj
  omega

/-- A table of 64 tickets leaves a tag free: at most 65 of the 256 are in use. -/
theorem State.exists_tagFree {s : State} (h : s.sc.tickets.length ≤ 64) (a start : Nat) :
    ∃ tag ∈ (List.range 256).map (fun i => (start + i) % 256), s.tagFree a tag = true := by
  by_contra hnone
  have hused : (List.range 256).map (fun i => (start + i) % 256) ⊆ s.tagsInUse a := fun tag htag =>
    State.mem_tagsInUse (Bool.eq_false_iff.mpr fun hfree => hnone ⟨tag, htag, hfree⟩)
  have hlength := ((tagsFrom_nodup start).subperm hused).length_le
  have hbound := s.tagsInUse_length a
  rw [List.length_map, List.length_range] at hlength
  omega

theorem State.jobTag_of_sc {s t : State} (h : t.sc = s.sc) (a : Nat) : t.jobTag a = s.jobTag a := by
  have hfree : t.tagFree a = s.tagFree a := by
    funext tag
    unfold State.tagFree
    rw [h, State.printRecord_of_sc h]
  unfold State.jobTag
  rw [hfree, State.printRecord_of_sc h]

/-- Settles O54. -/
theorem jobTagsAreFree : Obligations.JobTagsAreFree := by
  intro s a h
  obtain ⟨i, hi, hbefore, hfree, htag⟩ := find?_getD_first (s.exists_tagFree h a (s.printRecord a).nextTag) _ 256 rfl
    (s.printRecord a).nextTag
  replace htag : s.jobTag a = ((s.printRecord a).nextTag + i) % 256 := htag
  have hnot : ¬ s.tagFree a (s.jobTag a) = false := by simp [htag, hfree]
  rw [State.tagFree_false_iff, not_or] at hnot
  exact ⟨i, hi, htag, fun j hj => State.tagFree_false_iff.mp (hbefore j hj), hnot.1,
    fun k hk m hm => hnot.2 ⟨k, hk, m, hm⟩⟩

end Sys2Proof.Machine
end

section
/-! CLOSE: its checks in order, the empty close, and the print job with its TOTAL label (R134 to R138, R140). -/

namespace Sys2Proof.Machine

/-! ## A PRINT offered (R17) -/

section
variable {s : State} {a : Nat}

theorem State.offerTail_changes' (s : State) (a : Nat) (m : DownMsg) : Changes [.lc] s (s.offerTail a m) :=
  State.offerTail_changes a m (Changes.refl _ s) rfl

/-- An offer at the tail of a queue with room stands in the queue. -/
theorem State.offerTail_mem (hs : s.inService a = true) (hroom : ordinary (s.station a).queue < 8) (m : DownMsg) :
    { msg := m, sent := false } ∈ ((s.offerTail a m).station a).queue := by
  rw [s.offerTail_last a m hs (by unfold free; omega)]
  simp [append]

end

/-! ## The checks of R136 -/

section
variable {s : State} {a c : Nat}

theorem State.exec_close (h : s.takes a) : exec (.close a) s = .next ((s.markTaken a).takeClose a) :=
  congrArg _ (State.deliverAction_takes h _)

theorem State.takeClose_noClerk (h : s.clerkAt a = none) : s.takeClose a = s.reply a 16 .noClerk [] := by
  unfold State.takeClose
  rw [h]

theorem State.takeClose_proof (hc : s.clerkAt a = some c) (hp : (s.station a).state = .proof) :
    s.takeClose a = s.reply a 16 .proofOnly [] := by
  unfold State.takeClose
  simp only [hc, if_pos hp]

theorem State.takeClose_noTicket (h : s.mans a c) (hk : s.activeOf c = none) :
    s.takeClose a = s.reply a 16 .wrongState [] := by
  unfold State.takeClose
  simp only [h.1, if_neg h.2, hk]

section
variable {k : Ticket} (h : s.mans a c) (hk : s.activeOf c = some k)
include h hk

theorem State.takeClose_held (hheld : k.state = .held) : s.takeClose a = s.reply a 16 .held [] := by
  unfold State.takeClose
  simp only [h.1, if_neg h.2, hk, hheld]

theorem State.takeClose_wrongState (hstate : (∃ m, k.state = .parked m) ∨ ∃ job, k.state = .printing job) :
    s.takeClose a = s.reply a 16 .wrongState [] := by
  unfold State.takeClose
  rcases hstate with ⟨m, hm⟩ | ⟨job, hj⟩
  · simp only [h.1, if_neg h.2, hk, hm]
  · simp only [h.1, if_neg h.2, hk, hj]

theorem State.takeClose_carried (hstate : k.state = .printWait ∨ ∃ m, k.state = .opened m) :
    s.takeClose a = s.carryClose a k := by
  unfold State.takeClose
  rcases hstate with hw | ⟨m, hm⟩
  · simp only [h.1, if_neg h.2, hk, hw]
  · simp only [h.1, if_neg h.2, hk, hm]

end

end

/-! ## The empty close (R137) -/

/-- A CLOSE of a ticket without ACTIVE items removes it; no total is posted. -/
theorem State.closeEmpty_leaves {s : State} {a : Nat} (h : s.takes a) (k : Ticket) :
    let t := (s.markTaken a).closeEmpty a k
    t.answered a 16 .ok (chars 2 k.number ++ chars 1 2) ∧ s.removed t k ∧ s.took t a ∧ t.tu = s.tu := by
  intro t
  have hremove := (s.markTaken a).removeTicket_changes' k
  have hreply : Changes [.lc] ((s.markTaken a).removeTicket k) t := State.reply_changes a 16 .ok _ (Changes.refl _ _) rfl
  obtain ⟨hanswered, htook⟩ := State.reply_after h hremove (by decide) 16 .ok (chars 2 k.number ++ chars 1 2)
  have hremoved : s.removed ((s.markTaken a).removeTicket k) k := (State.removeTicket_removed _ k).congr rfl rfl
  exact ⟨hanswered, hremoved.then_changes hreply (by decide) (by decide), htook,
    (hreply.same .tu rfl).trans (hremove.same .tu rfl)⟩

/-! ## The print job (R138) -/

/-- The job tag assigned and the TOTAL label offered (R138 steps 1 and 2). -/
def State.totalOffered (s : State) (a : Nat) (k : Ticket) : State :=
  (s.assignTag a (s.jobTag a)).offerTail a (.print (s.totalLabel k (s.jobTag a)))

/-- Then the ticket in PRINTING, no longer active; the REPLY follows (R138 steps 3 and 4). -/
def State.closing (s : State) (a : Nat) (k : Ticket) : State :=
  ((s.totalOffered a k).putTicket (s.printing k a (s.jobTag a))).setActive k.clerk none

section
variable (s : State) (a : Nat) (k : Ticket)

theorem State.closePrint_eq : s.closePrint a k = (s.closing a k).reply a 16 .ok
    (chars 2 k.number ++ chars 1 1 ++ chars 4 k.total ++ chars 1 (s.jobTag a)) := rfl

theorem State.totalOffered_sc : (s.totalOffered a k).sc = (s.assignTag a (s.jobTag a)).sc :=
  ((s.assignTag a (s.jobTag a)).offerTail_changes' a _).same .sc rfl

theorem State.totalOffered_mem {s : State} {a : Nat} (hs : s.inService a = true) (hroom : ordinary (s.station a).queue ≤ 5)
    (k : Ticket) :
    { msg := .print (s.totalLabel k (s.jobTag a)), sent := false } ∈ ((s.totalOffered a k).station a).queue :=
  State.offerTail_mem (s := s.assignTag a (s.jobTag a)) hs (Nat.lt_of_le_of_lt hroom (by decide)) _

theorem State.closing_tickets : (s.closing a k).sc.tickets = replaceTicket (s.printing k a (s.jobTag a)) s.sc.tickets := by
  refine (State.setActive_tickets ..).1.trans ?_
  show replaceTicket _ (s.totalOffered a k).sc.tickets = _
  rw [State.totalOffered_sc]
  rfl

theorem State.assignTag_printRecord (tag : Nat) : (s.assignTag a tag).printRecord a =
    { s.printRecord a with nextTag := (tag + 1) % 256 } := by
  unfold State.assignTag
  rw [State.printRecord_setPrintRecord, if_pos rfl]

theorem State.closing_printRecord : (s.closing a k).printRecord a =
    { s.printRecord a with nextTag := (s.jobTag a + 1) % 256 } := by
  have hprints : (s.closing a k).sc.prints = (s.totalOffered a k).sc.prints := (State.setActive_tickets ..).2.2
  unfold State.printRecord
  rw [hprints, State.totalOffered_sc]
  exact s.assignTag_printRecord a (s.jobTag a)

theorem State.closing_active : ((s.closing a k).clerk k.clerk).active = none := by
  unfold State.closing
  rw [State.setActive_clerk, if_pos rfl]

/-- The line sees the PRINT alone. -/
theorem State.closing_lc : (s.closing a k).lc = (s.totalOffered a k).lc := State.setActive_lc ..

theorem State.closing_offers : Offers a 1 s (s.closing a k) := by
  have htag : Offers a 0 s (s.assignTag a (s.jobTag a)) := Offers.of_lc rfl
  exact (htag.trans (State.offerTail_offers ..)).then_lc (s.closing_lc a k)

end

/-- A CLOSE of a ticket with ACTIVE items starts its print job (R134, R138, R140). -/
theorem State.closePrint_leaves {s : State} {a : Nat} (h : s.takes a) (k : Ticket) :
    let tag := s.jobTag a
    let t := (s.markTaken a).closePrint a k
    s.took t a ∧ t.tu = s.tu ∧ t.art = s.art
      ∧ t.answered a 16 .ok (chars 2 k.number ++ chars 1 1 ++ chars 4 k.total ++ chars 1 tag)
      ∧ { msg := .print (s.totalLabel k tag), sent := false } ∈ (t.station a).queue
      ∧ t.sc.tickets = replaceTicket (s.printing k a tag) s.sc.tickets
      ∧ (t.clerk k.clerk).active = none
      ∧ t.printRecord a = { s.printRecord a with nextTag := (tag + 1) % 256 } := by
  intro tag t
  obtain ⟨hs, hroom⟩ := State.takes_room h
  have htag : (s.markTaken a).jobTag a = tag := State.jobTag_of_sc rfl a
  have ht : t = ((s.markTaken a).closing a k).reply a 16 .ok
      (chars 2 k.number ++ chars 1 1 ++ chars 4 k.total ++ chars 1 tag) := by
    rw [← htag]
    exact State.closePrint_eq ..
  have hclosed : Changes [.sc, .we, .lc] (s.markTaken a) t := State.closePrint_changes a k (Changes.refl _ _) rfl
  have hoffers := (s.markTaken a).closing_offers a k
  have hreply : Changes [.lc] ((s.markTaken a).closing a k) t :=
    ht ▸ State.reply_changes a 16 .ok _ (Changes.refl _ _) rfl
  have hsc : t.sc = ((s.markTaken a).closing a k).sc := hreply.same .sc rfl
  have htickets := (s.markTaken a).closing_tickets a k
  have hrecord := (s.markTaken a).closing_printRecord a k
  have hprint := State.totalOffered_mem hs hroom k
  rw [← State.station_of_lc (State.closing_lc ..), htag] at hprint
  rw [htag] at htickets hrecord
  refine ⟨?_, hclosed.same .tu rfl, hclosed.same .art rfl, ?_, ?_, ?_, ?_, ?_⟩
  · rw [ht]
    exact State.took_of_offers (hoffers.trans (State.reply_offers ..))
  · rw [ht]
    exact hoffers.answered hs (by omega)
  · rw [ht]
    exact State.reply_mem hprint
  · rw [hsc]
    exact htickets
  · rw [State.clerk_of_sc hsc]
    exact State.closing_active ..
  · rw [State.printRecord_of_sc hsc]
    exact hrecord

/-- Settles O53. -/
theorem closeStartsJob : Obligations.CloseStartsJob := by
  intro s a h
  have hexec := State.exec_close h
  refine ⟨fun hc => ?_, fun c hc hp => ?_, fun c hm => ?_⟩
  · exact hexec.trans (congrArg _ (State.takeClose_noClerk (s := s.markTaken a) hc))
  · exact hexec.trans (congrArg _ (State.takeClose_proof (s := s.markTaken a) hc (by rw [State.markTaken_state]; exact hp)))
  have hmans := State.markTaken_mans hm
  refine ⟨fun hk => ?_, fun k hk => ⟨fun hheld => ?_, fun hstate => ?_, fun hstate => ?_⟩⟩
  · exact hexec.trans (congrArg _ (State.takeClose_noTicket hmans hk))
  · exact hexec.trans (congrArg _ (State.takeClose_held hmans hk hheld))
  · exact hexec.trans (congrArg _ (State.takeClose_wrongState hmans hk hstate))
  intro sold tag
  replace hexec := hexec.trans (congrArg _ (State.takeClose_carried hmans hk hstate))
  have hempty : sold = activeItems k := rfl
  unfold State.carryClose at hexec
  rw [← hempty] at hexec
  refine ⟨fun hsold => ?_, fun hsold => ?_⟩
  · rw [if_pos hsold] at hexec
    exact ⟨_, hexec, State.closeEmpty_leaves h k⟩
  · rw [if_neg hsold] at hexec
    exact ⟨_, hexec, State.closePrint_leaves h k⟩

end Sys2Proof.Machine
end

section
/-! LABEL: its checks in order, the DIRECT ticket, the ITEM and proof labels, the release of the pin with its settle check,
and the WATCH_MATCH notices (R97, R100, R101, R139, R140, R145, R146, R166 to R170). -/

namespace Sys2Proof.Machine

/-! ## The checks of R145 and R146 -/

section
variable {s : State} {a c stamp : Nat}

theorem State.exec_label (h : s.takes a) (stamp : Nat) :
    exec (.label a stamp) s = .next ((s.markTaken a).takeLabel a stamp) :=
  congrArg _ (State.deliverAction_takes h _)

theorem State.takeLabel_noClerk (h : s.clerkAt a = none) : s.takeLabel a stamp = s.reply a 13 .noClerk [] := by
  unfold State.takeLabel
  rw [h]

theorem State.takeLabel_refused {code : ReplyCode} (hc : s.clerkAt a = some c) (h : s.itemCheck a stamp = .refused code) :
    s.takeLabel a stamp = s.reply a 13 code [] := by
  unfold State.takeLabel
  simp only [hc, h]

section
variable {p : Snapshot} {i : Item} (hc : s.clerkAt a = some c) (hi : s.itemCheck a stamp = .item p i)
include hc hi

theorem State.takeLabel_proof (hp : (s.station a).state = .proof) : s.takeLabel a stamp = s.carryProofLabel a p i := by
  unfold State.takeLabel
  simp only [hc, hi, if_pos hp]

/-- A LABEL in service, by the room of the ticket table (R145 check 4). -/
theorem State.takeLabel_serving (hp : (s.station a).state ≠ .proof) : s.takeLabel a stamp =
    if 64 ≤ s.sc.tickets.length then s.reply a 13 .tableFull [] else s.watchedLabel a c p i := by
  unfold State.takeLabel State.tableFull
  simp only [hc, hi, if_neg hp, decide_eq_true_eq]

end

end

/-! ## The watch's judgement of a LABEL (R145 check 5) -/

section
variable {s : State} {a c : Nat} {p : Snapshot} {i : Item} {r : WatchResult}
  (hr : watchResult s.wu .label i.article i.price c false = r)
include hr

theorem State.watchedLabel_blocked (h : r.outcome = some .block) : s.watchedLabel a c p i =
    ((s.countMatches r).reply a 13 .watched []).noteMatches r .label 1 a c 0 i.article i.price 0 := by
  unfold State.watchedLabel
  simp only [hr, h]

/-- A LABEL that no watch blocks is carried out, and the notices say DONE; without a match there is no notice (R169,
R170). -/
theorem State.watchedLabel_carried (h : r.outcome ≠ some .block) : s.watchedLabel a c p i =
    ((s.countMatches r).carryLabel a c p i (marksA s.wu r)).noteMatches r .label 3 a c s.freshTicketNumber i.article
      i.price 1 := by
  unfold State.watchedLabel
  simp only [hr]
  cases ho : r.outcome with
  | none => exact (State.noteMatches_of_no_match _ (WatchResult.no_match_of_outcome ho) ..).symm
  | some x =>
    cases x with
    | block => exact absurd ho h
    | hold | note => rfl

end

/-! ## A label printed and the pin released (R97, R145, R146) -/

/-- A PRINT offered, the pin released, the REPLY offered, and then the pinned article checked: what both forms of LABEL do
after their own records are written. -/
def State.labelPrinted (x : State) (a : Nat) (label : Label) (data : List Byte) : State :=
  (((x.offerTail a (.print label)).releasePin a).reply a 13 .ok data).finish (x.unpinTouches a)

/-- What a label printed at scale a, with the release of its pin p, leaves (R97, R100, R101, R140). -/
structure State.LabelLeft (x t : State) (a : Nat) (p : Snapshot) (label : Label) (data : List Byte) : Prop where
  offers : Offers a 3 x t
  answered : t.answered a 13 .ok data
  printed : { msg := .print label, sent := false } ∈ (t.station a).queue
  channel : t.channel a = judged (unpinned (x.channel a)) (x.verdictOf a (unpinned (x.channel a)))
  frame : Changes [.we, .art, .lc, .cd, .op] x t
  refs : ∀ n, (t.article n).refs = (x.article n).refs
  ended : x.PinEnded t t.op a p.number ((x.article p.number).withoutPin a)

/-- The end of a pin seen from an earlier state, where what came between left the channels, the changes in flight, the
notices and the pin set of the article. -/
theorem State.PinEnded.from_earlier {s x t : State} {port : OfficePort} {a n : Nat} {left : Article} {l : List Block}
    (h : x.PinEnded t port a n left) (g : Changes l s x) (hpins : (x.article n).pins = (s.article n).pins)
    (hl : Block.we ∉ l ∧ Block.cd ∉ l ∧ Block.op ∉ l) : s.PinEnded t port a n left := by
  obtain ⟨hwe, hcd, hop⟩ := hl
  refine h.congr (State.changeOf_of_cd (g.frame .cd hcd) n).symm (g.frame .op hop).symm (fun c hc => ?_) rfl rfl
  exact (State.oldPins_congr ((State.changeOf_number hc).symm ▸ hpins) (g.frame .we hwe)).symm

section
variable {x : State} {a : Nat} (label : Label) (data : List Byte)

theorem State.releasePin_mem {e : Entry} (he : e ∈ (x.station a).queue) (hv : isVerdict e.msg = false) :
    e ∈ ((x.releasePin a).station a).queue := by
  unfold State.releasePin
  split
  · refine State.evaluate_mem ?_ hv
    rw [State.station_of_lc (x.unpin_lc a)]
    exact he
  · exact he

theorem State.labelPrinted_left {p : Snapshot} (hs : x.inService a = true) (hroom : ordinary (x.station a).queue ≤ 5)
    (hp : (x.channel a).ctx.pin = some p) : x.LabelLeft (x.labelPrinted a label data) a p label data := by
  obtain ⟨y, hy⟩ : ∃ y, y = x.offerTail a (.print label) := ⟨_, rfl⟩
  obtain ⟨z, hz⟩ : ∃ z, z = (y.releasePin a).reply a 13 .ok data := ⟨_, rfl⟩
  have htouched : x.unpinTouches a = [p.number] := by simp [State.unpinTouches, State.pinned, hp]
  have ht : x.labelPrinted a label data = z.finish [p.number] := by rw [← htouched, hz, hy]; rfl
  have hprint : Changes [.lc] x y := hy ▸ x.offerTail_changes' a _
  have hrelease : Changes [.we, .art, .lc] y (y.releasePin a) := State.releasePin_changes a (Changes.refl _ y) rfl
  have hreply : Changes [.lc] (y.releasePin a) z := hz ▸ State.reply_changes a 13 .ok data (Changes.refl _ _) rfl
  have hoffered : Offers a 1 x y := hy ▸ State.offerTail_offers ..
  have hreleased := hoffered.trans (y.releasePin_offers a)
  have hreplied : Offers a 3 x z := hz ▸ hreleased.trans (State.reply_offers ..)
  have hmem : { msg := .print label, sent := false } ∈ (z.station a).queue := by
    rw [hz]
    refine State.reply_mem (State.releasePin_mem ?_ rfl)
    rw [hy]
    exact State.offerTail_mem hs (by omega) _
  have hchannel : y.channel a = x.channel a := State.channel_of_we (hprint.same .we rfl) a
  have hverdict : y.verdictOf a = x.verdictOf a := State.verdictOf_congr (hprint.same .op rfl) hoffered.state_eq
  have hended := State.releasePin_pinEnded (hchannel ▸ hp) hreply
  rw [State.article_of_art (hprint.same .art rfl)] at hended
  rw [ht]
  constructor
  case offers => exact hreplied.then_lc (State.finish_lc ..)
  case answered =>
    rw [hz]
    exact State.answered_of_lc (State.finish_lc ..) (hreleased.answered hs (by omega))
  case printed =>
    rw [State.station_of_lc (State.finish_lc ..)]
    exact hmem
  case channel =>
    rw [State.channel_of_we (State.finish_we ..), State.channel_of_we (hreply.same .we rfl), State.releasePin_channel,
      if_pos ⟨rfl, by rw [hchannel, hp]; rfl⟩, hchannel, hverdict]
  case frame =>
    exact (((hprint.grow (by simp)).trans (hrelease.grow (by simp))).trans (hreply.grow (by simp))).trans
      ((z.finish_changes' _).grow (by simp))
  case refs =>
    intro n
    rw [State.finish_refs, State.article_of_art (hreply.same .art rfl), State.releasePin_article,
      State.article_of_art (hprint.same .art rfl)]
    split <;> rfl
  case ended =>
    exact hended.from_earlier hprint (congrArg Article.pins (State.article_of_art (hprint.same .art rfl) _)) (by decide)

end

/-! ## The proof label (R146) -/

/-- The job tag assigned and kept as the scale's last proof tag (R135, R146). -/
def State.proofTagged (s : State) (a tag : Nat) : State :=
  (s.assignTag a tag).setPrintRecord a { (s.assignTag a tag).printRecord a with lastProof := some tag }

theorem State.proofTagged_printRecord (s : State) (a tag : Nat) : (s.proofTagged a tag).printRecord a =
    { s.printRecord a with nextTag := (tag + 1) % 256, lastProof := some tag } := by
  unfold State.proofTagged
  rw [State.printRecord_setPrintRecord, if_pos rfl, State.assignTag_printRecord]

theorem State.carryProofLabel_eq (s : State) (a : Nat) (p : Snapshot) (i : Item) : s.carryProofLabel a p i =
    (s.proofTagged a (s.jobTag a)).labelPrinted a (s.itemLabel p i (s.jobTag a) 0 true)
      (chars 2 0 ++ chars 3 i.price ++ chars 1 (s.jobTag a)) := rfl

/-- A proof LABEL prints without a ticket, and no watch sees it (R146). -/
theorem State.proofLabel_leaves {s : State} {a : Nat} (h : s.takes a) {p : Snapshot} (hp : (s.channel a).ctx.pin = some p)
    (i : Item) :
    let t := (s.markTaken a).carryProofLabel a p i
    let tag := s.jobTag a
    s.took t a ∧ t.answered a 13 .ok (chars 2 0 ++ chars 3 i.price ++ chars 1 tag)
      ∧ { msg := .print (s.itemLabel p i tag 0 true), sent := false } ∈ (t.station a).queue
      ∧ t.printRecord a = { s.printRecord a with nextTag := (tag + 1) % 256, lastProof := some tag }
      ∧ t.sc.tickets = s.sc.tickets ∧ t.wu = s.wu
      ∧ t.channel a = judged (unpinned (s.channel a)) (s.verdictOf a (unpinned (s.channel a)))
      ∧ s.PinEnded t t.op a p.number ((s.article p.number).withoutPin a) := by
  intro t tag
  obtain ⟨hs, hroom⟩ := State.takes_room h
  obtain ⟨x, hx⟩ : ∃ x, x = (s.markTaken a).proofTagged a tag := ⟨_, rfl⟩
  have htag : (s.markTaken a).jobTag a = tag := State.jobTag_of_sc rfl a
  have htagged : Changes [.sc] (s.markTaken a) x :=
    hx ▸ State.setPrintRecord_changes a _ (State.assignTag_changes a tag (Changes.refl _ _) rfl) rfl
  have hlc : x.lc = (s.markTaken a).lc := htagged.same .lc rfl
  have hchannel : x.channel a = s.channel a := State.channel_of_we (htagged.same .we rfl) a
  have hverdict : x.verdictOf a = s.verdictOf a :=
    State.verdictOf_congr (htagged.same .op rfl) (by rw [State.station_of_lc hlc]; exact s.markTaken_state a a)
  have hleft : x.LabelLeft t a p (s.itemLabel p i tag 0 true) (chars 2 0 ++ chars 3 i.price ++ chars 1 tag) := by
    have ht : t = _ := (s.markTaken a).carryProofLabel_eq a p i
    rw [htag, ← hx] at ht
    rw [ht]
    exact State.labelPrinted_left _ _ ((State.inService_of_lc hlc a).trans hs) (by rw [State.station_of_lc hlc]; exact hroom)
      (hchannel ▸ hp)
  have hsc : t.sc = x.sc := hleft.frame.same .sc rfl
  have hrecord := (s.markTaken a).proofTagged_printRecord a tag
  have hended := hleft.ended
  have hjudged := hleft.channel
  rw [hchannel, hverdict] at hjudged
  rw [State.article_of_art (htagged.same .art rfl)] at hended
  refine ⟨State.took_of_offers ((Offers.of_lc hlc).trans hleft.offers), hleft.answered, hleft.printed, ?_, ?_, ?_, hjudged,
    ?_⟩
  · rw [State.printRecord_of_sc hsc, hx]
    exact hrecord
  · rw [hsc, hx]
    rfl
  · exact (hleft.frame.same .wu rfl).trans (htagged.same .wu rfl)
  · exact (hended.from_earlier htagged (congrArg Article.pins (State.article_of_art (htagged.same .art rfl) _))
      (by decide)).of_markTaken

/-! ## The DIRECT ticket (R145) -/

/-- A ticket in a free record, a reference to article n and the job tag assigned (R145 steps 1 to 3). -/
def State.directPlaced (s : State) (a tag n : Nat) (k : Ticket) : State := ((s.openTicket k).addRef n).assignTag a tag

/-- What the REPLY of a LABEL in service carries (R145). -/
def State.labelChars (s : State) (a : Nat) (i : Item) : List Byte :=
  chars 2 s.freshTicketNumber ++ chars 3 i.price ++ chars 1 (s.jobTag a)

section
variable (s : State) (a tag n : Nat) (k : Ticket)

theorem State.directPlaced_changes : Changes [.sc, .art] s (s.directPlaced a tag n k) :=
  State.assignTag_changes a tag (State.addRef_changes n (State.openTicket_changes k (Changes.refl _ s) rfl) rfl) rfl

theorem State.directPlaced_clerk (d : Nat) : (s.directPlaced a tag n k).clerk d = s.clerk d := rfl

theorem State.directPlaced_ticketOf (h : s.ticketOf k.number = none) (m : Nat) :
    (s.directPlaced a tag n k).ticketOf m = if m = k.number then some k else s.ticketOf m :=
  State.openTicket_ticketOf h m

theorem State.directPlaced_printRecord : (s.directPlaced a tag n k).printRecord a =
    { s.printRecord a with nextTag := (tag + 1) % 256 } :=
  ((s.openTicket k).addRef n).assignTag_printRecord a tag

theorem State.directPlaced_article : (s.directPlaced a tag n k).article n =
    { s.article n with refs := (s.article n).refs + 1 } :=
  ((s.openTicket k).article_setArticle n n _).trans (if_pos rfl)

end

section
variable {s t : State} (hsc : t.sc = s.sc) (hop : t.op = s.op) (a c : Nat) (i : Item)
include hsc

theorem State.labelChars_congr : t.labelChars a i = s.labelChars a i := by
  unfold State.labelChars
  rw [State.jobTag_of_sc hsc, State.freshTicketNumber_of_sc hsc]

include hop

theorem State.directTicket_congr (marks : Bool) :
    t.directTicket a c i (t.jobTag a) marks = s.directTicket a c i (s.jobTag a) marks := by
  unfold State.directTicket State.printDeadline
  rw [State.jobTag_of_sc hsc, State.freshTicketNumber_of_sc hsc, hop]

theorem State.itemLabel_congr (p : Snapshot) : t.itemLabel p i (t.jobTag a) t.freshTicketNumber false =
    s.itemLabel p i (s.jobTag a) s.freshTicketNumber false := by
  unfold State.itemLabel
  rw [State.jobTag_of_sc hsc, State.freshTicketNumber_of_sc hsc, hop]

end

theorem State.carryLabel_eq (s : State) (a c : Nat) (p : Snapshot) (i : Item) (marks : Bool) : s.carryLabel a c p i marks =
    (s.directPlaced a (s.jobTag a) i.article (s.directTicket a c i (s.jobTag a) marks)).labelPrinted a
      (s.itemLabel p i (s.jobTag a) s.freshTicketNumber false) (s.labelChars a i) := by
  unfold State.carryLabel State.labelChars
  simp only [State.directTicket_number]
  rfl

/-- The state in which the label of an accepted LABEL is printed: the message taken, its matches counted and its DIRECT
ticket in the table (R145, R170). -/
def State.labelBase (s : State) (a c : Nat) (i : Item) (marks : Bool) (r : WatchResult) : State :=
  ((s.markTaken a).countMatches r).directPlaced a (s.jobTag a) i.article (s.directTicket a c i (s.jobTag a) marks)

section
variable (s : State) (a c : Nat) (i : Item) (marks : Bool) (r : WatchResult)

theorem State.labelBase_changes : Changes [.wu, .sc, .art] (s.markTaken a) (s.labelBase a c i marks r) := by
  have hcounted : Changes [.wu] (s.markTaken a) ((s.markTaken a).countMatches r) :=
    State.countMatches_changes r (Changes.refl _ _) rfl
  have hplaced := ((s.markTaken a).countMatches r).directPlaced_changes a (s.jobTag a) i.article
    (s.directTicket a c i (s.jobTag a) marks)
  exact (hcounted.grow (by simp)).trans (hplaced.grow (by simp))

theorem State.labelBase_verdictOf : (s.labelBase a c i marks r).verdictOf a = s.verdictOf a := by
  have hbase := s.labelBase_changes a c i marks r
  exact State.verdictOf_congr (hbase.same .op rfl)
    (by rw [State.station_of_lc (hbase.same .lc rfl)]; exact s.markTaken_state a a)

theorem State.labelBase_article : (s.labelBase a c i marks r).article i.article =
    { s.article i.article with refs := (s.article i.article).refs + 1 } :=
  State.directPlaced_article ..

theorem State.labelBase_ticketOf (h : s.ticketOf s.freshTicketNumber = none) (m : Nat) :
    (s.labelBase a c i marks r).ticketOf m =
      if m = s.freshTicketNumber then some (s.directTicket a c i (s.jobTag a) marks) else s.ticketOf m := by
  have hplaced := State.directPlaced_ticketOf ((s.markTaken a).countMatches r) a (s.jobTag a) i.article
    (s.directTicket a c i (s.jobTag a) marks) (by rw [State.directTicket_number]; exact h) m
  rw [State.directTicket_number] at hplaced
  exact hplaced

theorem State.labelBase_printRecord : (s.labelBase a c i marks r).printRecord a =
    { s.printRecord a with nextTag := (s.jobTag a + 1) % 256 } :=
  State.directPlaced_printRecord ..

end

/-- A LABEL carried out prints its label in the state with the DIRECT ticket (R145). -/
theorem State.carryLabel_left {s : State} {a : Nat} (h : s.takes a) (c : Nat) (i : Item) (marks : Bool) (r : WatchResult)
    {p : Snapshot} (hp : (s.channel a).ctx.pin = some p) :
    (s.labelBase a c i marks r).LabelLeft (((s.markTaken a).countMatches r).carryLabel a c p i marks) a p
      (s.itemLabel p i (s.jobTag a) s.freshTicketNumber false) (s.labelChars a i) := by
  obtain ⟨hs, hroom⟩ := State.takes_room h
  have hbase := s.labelBase_changes a c i marks r
  have hlc : (s.labelBase a c i marks r).lc = (s.markTaken a).lc := hbase.same .lc rfl
  have hsc : ((s.markTaken a).countMatches r).sc = s.sc := rfl
  have hop : ((s.markTaken a).countMatches r).op = s.op := rfl
  rw [State.carryLabel_eq, State.itemLabel_congr hsc hop, State.labelChars_congr hsc, State.directTicket_congr hsc hop,
    State.jobTag_of_sc hsc]
  refine State.labelPrinted_left _ _ ((State.inService_of_lc hlc a).trans hs) ?_ ?_
  · rw [State.station_of_lc hlc]
    exact hroom
  · rw [State.channel_of_we (hbase.same .we rfl)]
    exact hp

/-- What a LABEL that no watch blocks leaves, with its notices (R145, R170). -/
theorem State.label_leaves {s : State} {a : Nat} (h : s.takes a) (hn : s.sc.tickets.length < 64) (c : Nat) {i : Item}
    (marks : Bool) (r : WatchResult) {p : Snapshot} (hp : (s.channel a).ctx.pin = some p) (hi : i.article = p.number) :
    let n := s.freshTicketNumber
    let u := ((s.markTaken a).countMatches r).carryLabel a c p i marks
    let t := u.noteMatches r .label 3 a c n i.article i.price 1
    s.ticketOf n = none ∧ s.took t a ∧ t.answered a 13 .ok (s.labelChars a i)
      ∧ { msg := .print (s.itemLabel p i (s.jobTag a) n false), sent := false } ∈ (t.station a).queue
      ∧ t.ticketOf n = some (s.directTicket a c i (s.jobTag a) marks)
      ∧ (∀ m, m ≠ n → t.ticketOf m = s.ticketOf m) ∧ (∀ d, t.clerk d = s.clerk d)
      ∧ t.printRecord a = { s.printRecord a with nextTag := (s.jobTag a + 1) % 256 }
      ∧ (t.article p.number).refs = (s.article p.number).refs + 1
      ∧ t.channel a = judged (unpinned (s.channel a)) (s.verdictOf a (unpinned (s.channel a)))
      ∧ t.wu = { a := raiseCount s.wu.a r.a.isSome, b := raiseCount s.wu.b r.b.isSome }
      ∧ s.PinEnded t u.op a p.number
          { (s.article p.number).withoutPin a with refs := (s.article p.number).refs + 1 } := by
  intro n u t
  have hbase := s.labelBase_changes a c i marks r
  have hleft := State.carryLabel_left h c i marks r hp
  have hnotes : Changes [.op] u t := u.noteMatches_changes' ..
  have hchannel : (s.labelBase a c i marks r).channel a = s.channel a := State.channel_of_we (hbase.same .we rfl) a
  have harticle := hi ▸ s.labelBase_article a c i marks r
  have hsc : t.sc = (s.labelBase a c i marks r).sc := (hnotes.same .sc rfl).trans (hleft.frame.same .sc rfl)
  have hlc : t.lc = u.lc := hnotes.same .lc rfl
  have hfresh : s.ticketOf n = none :=
    List.find?_eq_none.mpr (fun k hk => by simpa using (State.freshTicketNumber_free hn).1 k hk)
  have hticket := s.labelBase_ticketOf a c i marks r hfresh
  refine ⟨hfresh, ?_, State.answered_of_lc hlc hleft.answered, ?_, ?_, fun m hm => ?_, fun d => ?_, ?_, ?_, ?_, ?_, ?_⟩
  · exact State.took_of_offers (((Offers.of_lc (hbase.same .lc rfl)).trans hleft.offers).then_lc hlc)
  · rw [State.station_of_lc hlc]
    exact hleft.printed
  · rw [State.ticketOf_of_sc hsc, hticket, if_pos rfl]
  · rw [State.ticketOf_of_sc hsc, hticket, if_neg hm]
  · rw [State.clerk_of_sc hsc]
    exact State.directPlaced_clerk ..
  · rw [State.printRecord_of_sc hsc, State.labelBase_printRecord]
  · rw [State.article_of_art (hnotes.same .art rfl), hleft.refs, harticle]
  · rw [State.channel_of_we (hnotes.same .we rfl), hleft.channel, hchannel, State.labelBase_verdictOf]
  · exact (hnotes.same .wu rfl).trans ((hleft.frame.same .wu rfl).trans rfl)
  · have hended := hleft.ended.from_earlier hbase (by rw [harticle]; rfl) (by decide)
    rw [harticle] at hended
    exact hended.of_markTaken.congr rfl rfl (fun _ _ => rfl) (State.changeOf_of_cd (hnotes.same .cd rfl) _)
      (State.article_of_art (hnotes.same .art rfl) _)

/-- Settles O55. -/
theorem labelPrints : Obligations.LabelPrints := by
  intro s a stamp h act ch tag
  have hexec := State.exec_label h stamp
  refine ⟨fun hc => ?_, fun c hc => ⟨fun hstamp => ?_, fun code hstamp hv => ?_, fun p hstamp hv hpin => ?_⟩⟩
  · exact hexec.trans (congrArg _ (State.takeLabel_noClerk (s := s.markTaken a) hc))
  · exact hexec.trans (congrArg _ (State.takeLabel_refused (s := s.markTaken a) hc
      (State.itemCheck_stale (s := s.markTaken a) hstamp)))
  · exact hexec.trans (congrArg _ (State.takeLabel_refused (s := s.markTaken a) hc
      (State.itemCheck_refused (s := s.markTaken a) hstamp hv)))
  intro i w counted label
  have hitem := State.itemCheck_item (s := s.markTaken a) hstamp hv hpin
  refine ⟨fun hp => ?_, fun hp => ?_⟩
  · have hproof := State.takeLabel_proof (s := s.markTaken a) hc hitem (by rw [State.markTaken_state]; exact hp)
    exact ⟨_, hexec.trans (congrArg _ hproof), State.proofLabel_leaves h hpin i⟩
  replace hexec := hexec.trans (congrArg _
    (State.takeLabel_serving (s := s.markTaken a) hc hitem (by rw [State.markTaken_state]; exact hp)))
  refine ⟨fun hfull => hexec.trans (congrArg _ (if_pos hfull)), fun hroom hblock => ?_, fun hroom hblock => ?_⟩
  all_goals replace hexec := hexec.trans (congrArg _ (if_neg (Nat.not_le.mpr hroom)))
  · have hwatch := State.watchedLabel_blocked (s := s.markTaken a) (a := a) (c := c) (p := p) (i := i) (r := w) rfl hblock
    obtain ⟨hanswered, htook, hwu, hframe, hop⟩ := State.blocked_leaves h w .label 13 c 0 p.number i.price
    exact ⟨_, hexec.trans (congrArg _ hwatch), hanswered, htook, hframe, hwu, hop⟩
  · have hwatch := State.watchedLabel_carried (s := s.markTaken a) (a := a) (c := c) (p := p) (i := i) (r := w) rfl hblock
    obtain ⟨hfresh, htook, hanswered, hprinted, hticket, hothers, hclerks, hrecord, hrefs, hchannel, hwu, hended⟩ :=
      State.label_leaves h hroom c (i := i) (marksA s.wu w) w hpin rfl
    exact ⟨_, s.freshTicketNumber, hexec.trans (congrArg _ hwatch), rfl, hfresh, htook, hanswered, hprinted, hticket,
      hothers, hclerks, hrecord, hrefs, hchannel, hwu, rfl, hended⟩

end Sys2Proof.Machine
end

section
/-! The customer queue: TAKE, NEXT, RECALL and QUE.RESET, with the examination of the rush condition and the CALLOUT that
follow a change of the waiting count (R149 to R155, R157, R158, R161). -/

namespace Sys2Proof.Machine

/-! ## What an examination leaves of the queue and the tickets (R157, R158) -/

section
variable {s : State}

theorem State.examine_calm (h : s.rushCondition = false) : s.examine = s := by
  unfold State.examine
  rw [if_neg (by simp [h])]

theorem State.examine_turns (h : s.rushCondition = true) : s.examine = s.changeLevel (otherLevel s.qc.level) := if_pos h

theorem State.rushCondition_calm (hl : s.qc.level = .normal) (hw : s.qc.waiting.length < s.op.settings.rushThreshold) :
    s.rushCondition = false := by
  simp [State.rushCondition, hl, hw]

theorem State.examine_frame (s : State) : Changes [.qc, .sc, .we, .op] s s.examine :=
  State.examine_changes (Changes.refl _ s) rfl

/-- A change of level leaves the waiting queue, the next number and the now-serving list. -/
theorem State.examine_queue (s : State) : s.examine.qc.waiting = s.qc.waiting
    ∧ s.examine.qc.nextNumber = s.qc.nextNumber ∧ s.examine.qc.serving = s.qc.serving := by
  cases h : s.rushCondition with
  | false =>
    rw [State.examine_calm h]
    exact ⟨rfl, rfl, rfl⟩
  | true =>
    rw [State.examine_turns h, State.changeLevel_qc]
    exact ⟨rfl, rfl, rfl⟩

/-- What the recomputation of R158 step 2 keeps: a property kept by putting a listed ticket back in another state and by
the end of an active ticket. -/
theorem State.recompute_induct {P : State → Prop} {l : List Ticket}
    (hput : ∀ t, ∀ x ∈ l, ∀ st, P t → P (t.putTicket { x with state := st }))
    (hend : ∀ t x, P t → P (t.deactivate x)) : ∀ s, P s → P (s.recompute l) := by
  induction l with
  | nil => exact fun _ h => h
  | cons x rest ih =>
    intro s h
    have hrest := ih (fun t y hy => hput t y (List.mem_cons_of_mem x hy))
    have hx := fun st => hput s x List.mem_cons_self st h
    unfold State.recompute
    cases x.state with
    | opened m =>
      dsimp only
      split
      · exact hrest _ (hend _ x (hx _))
      · exact hrest _ (hx _)
    | held | parked | printing | printWait => exact hrest s h

/-- The ticket table finds ticket k under its number, in whatever state. -/
def State.holdsTicket (s : State) (k : Ticket) : Prop := ∃ st, s.ticketOf k.number = some { k with state := st }

theorem State.putTicket_holdsTicket {k x : Ticket} (h : s.holdsTicket k)
    (hx : x.number = k.number → ∃ st, x = { k with state := st }) : (s.putTicket x).holdsTicket k := by
  obtain ⟨st, hk⟩ := h
  by_cases hn : x.number = k.number
  · obtain ⟨sx, rfl⟩ := hx hn
    exact ⟨sx, by rw [State.putTicket_ticketOf _ _ _ (by rw [hk]; rfl), if_pos rfl]⟩
  · exact ⟨st, (find?_replaceTicket x s.sc.tickets k.number (Ne.symm hn)).trans hk⟩

theorem State.deactivate_ticketOf (s : State) (x : Ticket) (n : Nat) : (s.deactivate x).ticketOf n = s.ticketOf n := by
  unfold State.ticketOf
  rw [State.deactivate_tickets]

/-- Where no other record has ticket k's number, an examination leaves the ticket in its record, perhaps in another
state. -/
theorem State.examine_holdsTicket {k : Ticket} (h : s.holdsTicket k)
    (hk : ∀ x ∈ s.sc.tickets, x.number = k.number → ∃ st, x = { k with state := st }) : s.examine.holdsTicket k := by
  cases hr : s.rushCondition with
  | false => rwa [State.examine_calm hr]
  | true =>
    rw [State.examine_turns hr]
    refine State.recompute_induct (P := fun t => t.holdsTicket k) (l := s.sc.tickets) (fun t x hx st ht => ?_)
      (fun t x ht => ?_) (s.enterLevel _) h
    · refine State.putTicket_holdsTicket ht (fun hn => ?_)
      obtain ⟨sx, rfl⟩ := hk x hx hn
      exact ⟨st, rfl⟩
    · obtain ⟨st, hst⟩ := ht
      exact ⟨st, (State.deactivate_ticketOf ..).trans hst⟩

theorem State.deactivate_lastTicket (s : State) (x : Ticket) : (s.deactivate x).sc.lastTicket = s.sc.lastTicket := by
  unfold State.deactivate
  split
  · exact (State.setActive_tickets ..).2.1
  · rfl

theorem State.examine_lastTicket (s : State) : s.examine.sc.lastTicket = s.sc.lastTicket := by
  cases hr : s.rushCondition with
  | false => rw [State.examine_calm hr]
  | true =>
    rw [State.examine_turns hr]
    exact State.recompute_induct (P := fun t => t.sc.lastTicket = s.sc.lastTicket) (fun _ _ _ _ ht => ht)
      (fun t x ht => (t.deactivate_lastTicket x).trans ht) (s.enterLevel _) rfl

end

/-! ## The examination with its CALLOUT, and the REPLY behind it (R153) -/

/-- A change of the waiting count followed up: the examination, then one CALLOUT offered. -/
def State.announced (s : State) : State := s.examine.offerCallout

theorem State.announced_frame (s : State) : Changes [.lc] s.examine s.announced :=
  State.offerCallout_changes (Changes.refl _ _) rfl

theorem State.announced_station (s : State) {b : Nat} (hb : b ≠ 18) : s.announced.station b = s.station b :=
  ((State.offerCallout_offers _).only.1 b hb).trans (State.station_of_lc (s.examine_frame.same .lc rfl) b)

theorem State.announced_callout {s z : State} (h : z.station 18 = s.station 18) : s.CalloutOffered z.announced :=
  z.examine.offerCallout_offered.congr
    (h.symm.trans (State.station_of_lc (z.examine_frame.same .lc rfl) 18).symm) rfl rfl

section
variable (z : State) {a : Nat} (action : Nat) (code : ReplyCode) (data : List Byte)

theorem State.announced_reply_frame (a : Nat) : Changes [.lc] z.examine (z.announced.reply a action code data) :=
  z.announced_frame.trans (State.reply_changes a action code data (Changes.refl _ _) rfl)

theorem State.announced_reply_queue (a : Nat) : (z.announced.reply a action code data).qc.waiting = z.qc.waiting
    ∧ (z.announced.reply a action code data).qc.nextNumber = z.qc.nextNumber
    ∧ (z.announced.reply a action code data).qc.serving = z.qc.serving := by
  rw [(z.announced_reply_frame action code data a).same .qc rfl]
  exact z.examine_queue

variable {z} (ha : a ≠ 18)
include ha

theorem State.announced_reply_answered (hs : z.inService a = true) (hroom : ordinary (z.station a).queue < 8) :
    (z.announced.reply a action code data).answered a action code data := by
  refine State.reply_answered _ a action code data ?_ ?_
  · unfold State.inService
    rwa [z.announced_station ha]
  · rw [z.announced_station ha]
    unfold free
    omega

theorem State.announced_reply_callout {s : State} (h : z.station 18 = s.station 18) :
    s.CalloutOffered (z.announced.reply a action code data) :=
  (State.announced_callout h).congr rfl
    ((State.reply_changes (m := [.lc]) a action code data (Changes.refl _ _) rfl).same .qc rfl)
    ((State.reply_offers ..).only.1 18 ha.symm)

end

/-! ## TAKE (R150, R151) -/

section
variable {s : State}

theorem State.queueInUse_false {q : Nat} : s.queueInUse q = false ↔
    q ∉ s.qc.waiting ∧ ∀ k ∈ s.sc.tickets, k.queueNumber ≠ some q := by
  simp [State.queueInUse]

theorem State.freeQueueNumber_none (h : ∀ q, q < 100 → s.queueInUse q = true) : s.freeQueueNumber = none := by
  unfold State.freeQueueNumber
  rw [List.find?_map, Option.map_eq_none_iff, List.find?_eq_none]
  intro i _
  simp [h _ (Nat.mod_lt _ (by omega))]

theorem State.freeQueueNumber_first {i : Nat} (hi : i < 100) (h : s.queueInUse ((s.qc.nextNumber + i) % 100) = false)
    (hj : ∀ j, j < i → s.queueInUse ((s.qc.nextNumber + j) % 100) = true) :
    s.freeQueueNumber = some ((s.qc.nextNumber + i) % 100) := by
  have hfirst : (List.range 100).find? (fun j => !s.queueInUse ((s.qc.nextNumber + j) % 100)) = some i :=
    List.find?_range_eq_some.mpr ⟨by simp [h], by simpa using hi, fun j hlt => by simp [hj j hlt]⟩
  unfold State.freeQueueNumber
  rw [List.find?_map]
  exact congrArg _ hfirst

theorem State.takeTake_full (h : 64 ≤ s.qc.waiting.length) : s.takeTake = s.refuseTake 1 := if_pos h

theorem State.takeTake_noNumber (h : s.qc.waiting.length < 64) (hf : s.freeQueueNumber = none) :
    s.takeTake = s.refuseTake 2 := by
  unfold State.takeTake
  rw [if_neg (by omega), hf]

/-- The state that a TAKE examines: number q at the end of the waiting queue. -/
def State.numberTaken (s : State) (q : Nat) : State :=
  { s with qc := { s.qc with waiting := s.qc.waiting ++ [q], nextNumber := (q + 1) % 100 } }

theorem State.takeTake_issues {q : Nat} (h : s.qc.waiting.length < 64) (hf : s.freeQueueNumber = some q) :
    s.takeTake = (s.numberTaken q).announced.reply 17 21 .ok (chars 1 q) := by
  unfold State.takeTake
  rw [if_neg (by omega), hf]
  rfl

variable (hs : s.inService 17 = true) (hr : s.op.resetLow = false) (ha : s.admits 17 = true)
include hs hr ha

theorem State.exec_take : exec .take s = .next (s.markTaken 17).takeTake :=
  congrArg Host.Outcome.next (if_pos ⟨rfl, hs, hr, fun _ => ha⟩)

/-- A number issued: it joins the waiting queue, and the examination and the CALLOUT follow. -/
theorem State.take_issues {q : Nat} (hw : s.qc.waiting.length < 64) (hq : s.freeQueueNumber = some q) :
    ∃ t, exec .take s = .next t ∧ t.answered 17 21 .ok (chars 1 q) ∧ t.qc.waiting = s.qc.waiting ++ [q]
      ∧ t.qc.nextNumber = (q + 1) % 100 ∧ t.qc.serving = s.qc.serving
      ∧ (s.numbersSound → s.Examined t (s.qc.waiting.length + 1) s.ticketOf s.clerk) ∧ s.CalloutOffered t := by
  have htake := State.takeTake_issues (s := s.markTaken 17) hw hq
  have hlc : ((s.markTaken 17).numberTaken q).lc = (s.markTaken 17).lc := rfl
  have hservice : ((s.markTaken 17).numberTaken q).inService 17 = true :=
    (State.inService_of_lc hlc 17).trans ((s.markTaken_inService 17 17).trans hs)
  have hroom : ordinary (((s.markTaken 17).numberTaken q).station 17).queue < 8 := by
    have hfree : 3 ≤ free (s.station 17).queue := of_decide_eq_true ha
    rw [State.station_of_lc hlc, State.markTaken_station, if_pos rfl]
    unfold free at hfree
    dsimp only
    omega
  have hdisplay := (State.station_of_lc hlc 18).trans ((s.markTaken_only 17).1 18 (by decide))
  obtain ⟨hwaiting, hnext, hserving⟩ :=
    State.announced_reply_queue ((s.markTaken 17).numberTaken q) 21 .ok (chars 1 q) 17
  refine ⟨_, (State.exec_take hs hr ha).trans (congrArg _ htake),
    State.announced_reply_answered _ _ _ (by decide) hservice hroom, hwaiting, hnext, hserving, fun hn => ?_,
    State.announced_reply_callout _ _ _ (by decide) hdisplay⟩
  have hexamined := State.examine_examined (s := s) (z := (s.markTaken 17).numberTaken q) rfl rfl rfl rfl rfl hn.1
  have hcount : ((s.markTaken 17).numberTaken q).qc.waiting.length = s.qc.waiting.length + 1 := List.length_append
  rw [hcount] at hexamined
  exact hexamined.congr (State.announced_reply_frame ..)

end

/-! ## QUE.RESET (R161) -/

/-- A response stored behind an examination changes nothing of what the examination left. -/
theorem State.Examined.responded {s t : State} {count : Nat} {tickets : Nat → Option Ticket} {clerks : Nat → Clerk}
    (h : s.Examined t count tickets clerks) (code : Byte) (result : ResultCode) (clamped : Bool) (body : List Byte)
    (sent : Nat) : s.Examined (t.responded code result clamped body sent) count tickets clerks := by
  refine ⟨fun hr => ?_, h.kept⟩
  obtain ⟨level, retimed, parked, others, notice⟩ := h.turned hr
  exact ⟨level, retimed, parked, others, notice⟩

section
variable {s : State} {n : Nat}

/-- The waiting queue emptied and the next number set. -/
def State.queueEmptied (s : State) (n : Nat) : State := { s with qc := { s.qc with waiting := [], nextNumber := n } }

theorem State.exec_queReset {u : State} {r : Answer} (hr : s.op.resetLow = false) (h : s.queReset (chars 1 n) = (u, r)) :
    exec (.queReset (chars 1 n)) s = .next (u.responded 81 r.result r.clamped r.body 4) := by
  show Host.Outcome.next (s.transact 81 (chars 1 n) (fun t => t.queReset (chars 1 n))) = _
  rw [State.transact_responds hr (by simp) h, chars_length]

theorem State.queReset_refused (hn : n < 256) (h : 99 < n) : s.queReset (chars 1 n) = (s, .refuse .badArg) := by
  unfold State.queReset
  dsimp only
  rw [field_chars_eq (by omega), if_pos (.inr h)]

theorem State.queReset_accepted (h : n ≤ 99) : s.queReset (chars 1 n) =
    if s.qc.waiting = [] then (s.queueEmptied n, .ok []) else ((s.queueEmptied n).announced, .ok []) := by
  unfold State.queReset
  dsimp only
  rw [field_chars_eq (by omega), if_neg (by rw [chars_length]; omega)]
  rfl

/-- A reset of an empty waiting queue leaves the waiting count, so that nothing is examined. -/
theorem State.queReset_quiet (hr : s.op.resetLow = false) (hn : n ≤ 99) (h : s.qc.waiting = []) :
    exec (.queReset (chars 1 n)) s = .next ((s.queueEmptied n).responded 81 .ok false [] 4) :=
  State.exec_queReset hr ((State.queReset_accepted hn).trans (if_pos h))

theorem State.queReset_announces (hr : s.op.resetLow = false) (hn : n ≤ 99) (h : s.qc.waiting ≠ []) :
    exec (.queReset (chars 1 n)) s = .next ((s.queueEmptied n).announced.responded 81 .ok false [] 4) :=
  State.exec_queReset hr ((State.queReset_accepted hn).trans (if_neg h))

theorem State.queueEmptied_quiet : Changes [.qc, .op] s ((s.queueEmptied n).responded 81 .ok false [] 4) :=
  ⟨fun b hb => by cases b <;> first | rfl | exact absurd hb (by decide)⟩

theorem State.queueEmptied_examined (hn : s.numbersSound) :
    s.Examined ((s.queueEmptied n).announced.responded 81 .ok false [] 4) 0 s.ticketOf s.clerk :=
  ((State.examine_examined (s := s) (z := s.queueEmptied n) rfl rfl rfl rfl rfl hn.1).congr
    (State.announced_frame _)).responded ..

end

/-- Settles O57. -/
theorem queueIssuesNumbers : Obligations.QueueIssuesNumbers := by
  refine ⟨fun s hs hr ha => ?_, fun s => s.offerCallout_offered, fun s n hr hn => ⟨fun h => ?_, fun h => ?_⟩⟩
  · intro free
    have hexec := State.exec_take hs hr ha
    have hused : ∀ q, ¬ free q → s.queueInUse q = true := fun q hq =>
      (Bool.eq_false_or_eq_true _).resolve_right (fun h => hq (State.queueInUse_false.mp h))
    refine ⟨fun hw => ?_, fun hw hq => ?_, fun i hw hi hfree hbusy => ?_⟩
    · exact hexec.trans (congrArg _ (State.takeTake_full (s := s.markTaken 17) hw))
    · exact hexec.trans (congrArg _ (State.takeTake_noNumber (s := s.markTaken 17) hw
        (State.freeQueueNumber_none (s := s) (fun q h => hused q (hq q h)))))
    · exact State.take_issues hs hr ha hw
        (State.freeQueueNumber_first hi (State.queueInUse_false.mpr hfree) (fun j hj => hused _ (hbusy j hj)))
  · exact State.exec_queReset hr (State.queReset_refused hn h)
  · by_cases hw : s.qc.waiting = []
    · exact ⟨_, State.queReset_quiet hr h hw, rfl, rfl, rfl, rfl,
        fun _ => ⟨⟨rfl, rfl, rfl⟩, State.queueEmptied_quiet⟩, fun hne => absurd hw hne⟩
    · obtain ⟨hwaiting, hnext, hserving⟩ := (s.queueEmptied n).examine_queue
      have hqc : (s.queueEmptied n).announced.qc = (s.queueEmptied n).examine.qc := State.offerCallout_qc _
      have hcallout : s.CalloutOffered (s.queueEmptied n).announced := State.announced_callout rfl
      refine ⟨_, State.queReset_announces hr h hw, ?_, ?_, ?_, rfl, fun he => absurd he hw,
        fun _ => ⟨State.queueEmptied_examined, hcallout.congr rfl rfl rfl⟩⟩
      · exact (congrArg (·.waiting) hqc).trans hwaiting
      · exact (congrArg (·.nextNumber) hqc).trans hnext
      · exact (congrArg (·.serving) hqc).trans hserving

/-! ## NEXT (R154) -/

section
variable {s : State} {a c q : Nat} {rest : List Nat}

theorem State.takeNext_refused {code : ReplyCode} (h : s.openingRefused a = some code) :
    s.takeNext a = s.reply a 18 code [] := by
  unfold State.takeNext
  rw [h]

/-- The limit and the room of the table pass (R118 checks 3 and 4). -/
theorem State.openingRefused_passes (hm : s.mans a c) (hl : s.atLimit c = false) (hn : s.sc.tickets.length < 64) :
    s.openingRefused a = none := by
  rw [State.openingRefused_manned hm, hl, State.tableFull_false.mpr hn]
  rfl

theorem State.takeNext_empty (hr : s.openingRefused a = none) (hc : s.clerkAt a = some c) (hw : s.qc.waiting = []) :
    s.takeNext a = s.reply a 18 .emptyQueue [] := by
  unfold State.takeNext
  rw [hr, hc, hw]

theorem State.takeNext_calls (hr : s.openingRefused a = none) (hc : s.clerkAt a = some c) (hw : s.qc.waiting = q :: rest) :
    s.takeNext a = s.carryNext a c q rest := by
  unfold State.takeNext
  rw [hr, hc, hw]

end

/-- The oldest number off the waiting queue. -/
def State.numberLeaves (s : State) (rest : List Nat) : State := { s with qc := { s.qc with waiting := rest } }

/-- The state that a NEXT examines: number q called, its ticket k open and active, and the now-serving list with it. -/
def State.numberCalled (s : State) (a c q : Nat) (rest : List Nat) (k : Ticket) : State :=
  ((s.numberLeaves rest).opensAs c k).setServing (placeServing q a s.qc.serving)

section
variable (s : State) (a c q : Nat) (rest : List Nat) (k : Ticket)

theorem State.numberLeaves_counterTicket (x : Option Nat) :
    (s.numberLeaves rest).counterTicket c x = s.counterTicket c x := rfl

theorem State.numberLeaves_opensAs_qc : ((s.numberLeaves rest).opensAs c k).qc = { s.qc with waiting := rest } :=
  (State.opensAs_changes ..).same .qc rfl

theorem State.carryNext_eq (hk : s.counterTicket c (some q) = k) : s.carryNext a c q rest =
    (s.numberCalled a c q rest k).announced.reply a 18 .ok (chars 2 k.number ++ chars 1 q) := by
  have hserving := congrArg (·.serving) (s.numberLeaves_opensAs_qc c rest k)
  unfold State.numberCalled
  dsimp only at hserving
  rw [← hserving, ← hk, ← State.numberLeaves_counterTicket s c rest]
  rfl

theorem State.numberCalled_frame : Changes [.qc, .sc, .we] s (s.numberCalled a c q rest k) := by
  have hleaves : Changes [.qc, .sc, .we] s (s.numberLeaves rest) :=
    ⟨fun b hb => by cases b <;> first | rfl | exact absurd hb (by decide)⟩
  exact State.setServing_changes _ (hleaves.trans ((State.opensAs_changes ..).of rfl)) rfl

theorem State.numberCalled_qc : (s.numberCalled a c q rest k).qc =
    { s.qc with waiting := rest, serving := placeServing q a s.qc.serving } := by
  unfold State.numberCalled
  rw [State.setServing_qc, State.numberLeaves_opensAs_qc]

theorem State.numberCalled_clerk (d : Nat) : (s.numberCalled a c q rest k).clerk d =
    if d = c then { s.clerk c with active := some k.number } else s.clerk d :=
  State.opensAs_clerk (s.numberLeaves rest) c d k

theorem State.numberCalled_tickets : (s.numberCalled a c q rest k).sc.tickets = insertTicket k s.sc.tickets :=
  (State.setActive_tickets ..).1

theorem State.numberCalled_lastTicket : (s.numberCalled a c q rest k).sc.lastTicket = k.number :=
  State.opensAs_lastTicket ..

end

section
variable {s : State} {k : Ticket} (hfree : ∀ x ∈ s.sc.tickets, x.number ≠ k.number)
include hfree

theorem State.ticketOf_unused : s.ticketOf k.number = none :=
  List.find?_eq_none.mpr (fun x hx => by simpa using hfree x hx)

theorem State.numberCalled_ticketOf (a c q : Nat) (rest : List Nat) (m : Nat) :
    (s.numberCalled a c q rest k).ticketOf m = if m = k.number then some k else s.ticketOf m :=
  State.opensAs_ticketOf (s := s.numberLeaves rest) (State.ticketOf_unused hfree) c m

theorem State.numberCalled_rising (a c q : Nat) (rest : List Nat) (hs : s.numbersSound) :
    (s.numberCalled a c q rest k).sc.tickets.Pairwise (fun x y => x.number < y.number) := by
  rw [State.numberCalled_tickets]
  exact insertTicket_rising _ _ hs.1 hfree

/-- The ticket of a NEXT stands in its record after the examination, in whatever state. -/
theorem State.numberCalled_holdsTicket (a c q : Nat) (rest : List Nat) :
    (s.numberCalled a c q rest k).examine.holdsTicket k := by
  refine State.examine_holdsTicket ⟨_, (State.numberCalled_ticketOf hfree a c q rest _).trans (if_pos rfl)⟩
    (fun x hx hk => ?_)
  rw [State.numberCalled_tickets, mem_insertTicket] at hx
  rcases hx with rfl | hx
  · exact ⟨_, rfl⟩
  · exact absurd hk (hfree x hx)

end

section
variable {s : State} {a : Nat} (h : s.takes a)
include h

theorem State.exec_next : exec (.next a) s = .next ((s.markTaken a).takeNext a) :=
  congrArg _ (State.deliverAction_takes h _)

theorem State.next_refused {code : ReplyCode} (hr : (s.markTaken a).openingRefused a = some code) :
    s.turnsAway (.next a) a 18 code :=
  (State.exec_next h).trans (congrArg _ (State.takeNext_refused hr))

/-- NEXT with a clerk below the limit, a free record and a waiting number (R152, R154). -/
theorem State.next_calls {c q : Nat} {rest : List Nat} {k : Ticket} (hm : s.mans a c) (hl : s.atLimit c = false)
    (hn : s.sc.tickets.length < 64) (hw : s.qc.waiting = q :: rest) (hk : s.counterTicket c (some q) = k)
    (hfree : ∀ x ∈ s.sc.tickets, x.number ≠ k.number) :
    ∃ t, exec (.next a) s = .next t ∧ t.answered a 18 .ok (chars 2 k.number ++ chars 1 q)
      ∧ t.qc.waiting = rest ∧ t.qc.nextNumber = s.qc.nextNumber ∧ t.qc.serving = placeServing q a s.qc.serving
      ∧ t.holdsTicket k ∧ t.sc.lastTicket = k.number
      ∧ (s.qc.level = .normal → rest.length < s.op.settings.rushThreshold →
          t.ticketOf k.number = some k ∧ (t.clerk c).active = some k.number)
      ∧ (s.numbersSound → s.Examined t rest.length (fun m => if m = k.number then some k else s.ticketOf m)
          (fun d => if d = c then { s.clerk c with active := some k.number } else s.clerk d))
      ∧ s.CalloutOffered t := by
  have ha := State.takes_notDisplay h
  obtain ⟨hs, hroom⟩ := State.takes_room h
  obtain ⟨z, hz⟩ : ∃ z, z = (s.markTaken a).numberCalled a c q rest k := ⟨_, rfl⟩
  have htake := (State.takeNext_calls (State.openingRefused_passes (State.markTaken_mans hm) hl hn) hm.1 hw).trans
    (State.carryNext_eq _ a c q rest k ((State.markTaken_counterTicket ..).trans hk))
  rw [← hz] at htake
  have hframe : Changes [.qc, .sc, .we] (s.markTaken a) z := hz ▸ State.numberCalled_frame ..
  have hlc : z.lc = (s.markTaken a).lc := hframe.same .lc rfl
  have hop : z.op = s.op := hframe.same .op rfl
  have hqc : z.qc = { s.qc with waiting := rest, serving := placeServing q a s.qc.serving } :=
    hz ▸ State.numberCalled_qc ..
  have htickets : z.ticketOf = fun m => if m = k.number then some k else s.ticketOf m :=
    funext (fun m => hz ▸ State.numberCalled_ticketOf (s := s.markTaken a) hfree a c q rest m)
  have hclerks : z.clerk = fun d => if d = c then { s.clerk c with active := some k.number } else s.clerk d :=
    funext (fun d => hz ▸ State.numberCalled_clerk (s.markTaken a) a c q rest k d)
  have hreply := z.announced_reply_frame 18 .ok (chars 2 k.number ++ chars 1 q) a
  have hsc := hreply.same .sc rfl
  obtain ⟨hwaiting, hnext, hserving⟩ := z.announced_reply_queue 18 .ok (chars 2 k.number ++ chars 1 q) a
  rw [hqc] at hwaiting hnext hserving
  have hdisplay : z.station 18 = s.station 18 :=
    (State.station_of_lc hlc 18).trans ((s.markTaken_only a).1 18 ha.symm)
  refine ⟨_, (State.exec_next h).trans (congrArg _ htake), State.announced_reply_answered _ _ _ ha ?_ ?_, hwaiting, hnext,
    hserving, ?_, ?_, fun hlevel hcount => ?_, fun hsound => ?_, State.announced_reply_callout _ _ _ ha hdisplay⟩
  · exact (State.inService_of_lc hlc a).trans hs
  · rw [State.station_of_lc hlc]
    omega
  · obtain ⟨st, hst⟩ := hz ▸ State.numberCalled_holdsTicket (s := s.markTaken a) hfree a c q rest
    exact ⟨st, (State.ticketOf_of_sc hsc _).trans hst⟩
  · rw [hsc, State.examine_lastTicket, hz]
    exact State.numberCalled_lastTicket ..
  · have hcalm : z.examine = z := State.examine_calm (State.rushCondition_calm (by rw [hqc]; exact hlevel)
      (by rw [hqc, hop]; exact hcount))
    rw [State.ticketOf_of_sc hsc, State.clerk_of_sc hsc, hcalm, htickets, hclerks]
    simp
  · have hrising := hz ▸ State.numberCalled_rising (s := s.markTaken a) hfree a c q rest hsound
    have hexamined := State.examine_examined (s := s) (z := z) (by rw [hqc]) (by rw [hqc]) (by rw [hqc]) (by rw [hqc]) hop
      hrising
    rw [htickets, hclerks, hqc] at hexamined
    exact hexamined.congr hreply

end

/-- Settles O58. -/
theorem nextCallsOldest : Obligations.NextCallsOldest := by
  refine fun s a h => ⟨fun hc => ?_, fun c hc hp => ?_, fun c hm => ?_⟩
  · exact State.next_refused h (State.openingRefused_noClerk (s := s.markTaken a) hc)
  · exact State.next_refused h (State.openingRefused_proof (s := s.markTaken a) hc (by rw [State.markTaken_state, hp]))
  have hmans := State.markTaken_mans hm
  have hlimit : (s.markTaken a).atLimit c = s.atLimit c := rfl
  refine ⟨fun hl => ?_, fun hl hn => ?_, fun hl hn hw => ?_, fun q rest hl hn hw => ?_⟩
  · exact State.next_refused h (by rw [State.openingRefused_manned hmans, hlimit, hl]; rfl)
  · have hfull : (s.markTaken a).tableFull = true := decide_eq_true hn
    exact State.next_refused h (by rw [State.openingRefused_manned hmans, hlimit, hl, hfull]; rfl)
  · exact (State.exec_next h).trans (congrArg _
      (State.takeNext_empty (State.openingRefused_passes hmans hl hn) hm.1 hw))
  · intro n
    have hfresh : ∀ x ∈ s.sc.tickets, x.number ≠ n := (State.freshTicketNumber_free hn).1
    obtain ⟨k, hk⟩ : ∃ k : Ticket, k = { s.counterTicket c (some q) with number := n } := ⟨_, rfl⟩
    have hnumber : k.number = n := by rw [hk]
    obtain ⟨t, hexec, hanswered, hwaiting, hnext, hserving, ⟨st, hheld⟩, hlast, hcalm, hexamined, hcallout⟩ :=
      State.next_calls h hm hl hn hw hk.symm (hnumber ▸ hfresh)
    have hunused : s.ticketOf k.number = none := State.ticketOf_unused (hnumber ▸ hfresh)
    clear_value n
    subst hnumber
    refine ⟨t, { k with state := st }, hexec, hanswered, hwaiting, hnext, hserving, hunused, hheld, ?_, ?_, ?_, ?_, ?_, ?_,
      ?_, hlast, fun hlevel hcount => ?_, fun hsound => ?_, hcallout⟩
    iterate 7 (rw [hk]; rfl)
    · obtain ⟨hopened, hactive⟩ := hcalm hlevel hcount
      have hstate : st = k.state := congrArg (·.state) (Option.some.inj (hheld.symm.trans hopened))
      exact ⟨hstate.trans (by rw [hk]; rfl), hactive⟩
    · rw [hk] at hexamined
      exact hexamined hsound

/-! ## RECALL (R155) -/

section
variable {s : State} {a c : Nat}

theorem State.takeRecall_noClerk (h : s.clerkAt a = none) : s.takeRecall a = s.reply a 19 .noClerk [] := by
  unfold State.takeRecall
  rw [h]

theorem State.takeRecall_proof (hc : s.clerkAt a = some c) (hp : (s.station a).state = .proof) :
    s.takeRecall a = s.reply a 19 .proofOnly [] := by
  unfold State.takeRecall
  simp only [hc, if_pos hp]

/-- A manned RECALL by the queue number of the active ticket (R155 check 3). -/
theorem State.takeRecall_noNumber (h : s.mans a c) (hq : s.activeNumber c = none) :
    s.takeRecall a = s.reply a 19 .wrongState [] := by
  unfold State.takeRecall
  simp only [h.1, if_neg h.2, hq]

theorem State.takeRecall_shows {q : Nat} (h : s.mans a c) (hq : s.activeNumber c = some q) : s.takeRecall a =
    ((s.setServing (placeServing q a s.qc.serving)).offerCallout).reply a 19 .ok (chars 1 q) := by
  unfold State.takeRecall
  simp only [h.1, if_neg h.2, hq]

theorem State.activeNumber_none (h : ∀ k, s.activeOf c = some k → k.queueNumber = none) : s.activeNumber c = none :=
  Option.bind_eq_none_iff.mpr h

theorem State.activeNumber_some {k : Ticket} {q : Nat} (hk : s.activeOf c = some k) (hq : k.queueNumber = some q) :
    s.activeNumber c = some q :=
  Option.bind_eq_some_iff.mpr ⟨k, hk, hq⟩

theorem State.exec_recallNumber (h : s.takes a) : exec (.recallNumber a) s = .next ((s.markTaken a).takeRecall a) :=
  congrArg _ (State.deliverAction_takes h _)

end

/-- Settles O59. -/
theorem recallShowsNumber : Obligations.RecallShowsNumber := by
  intro s a h
  have hexec := State.exec_recallNumber h
  refine ⟨fun hc => ?_, fun c hc hp => ?_, fun c hm hk => ?_, fun c k q hm hk hq => ⟨_, rfl, ?_⟩⟩
  · exact hexec.trans (congrArg _ (State.takeRecall_noClerk (s := s.markTaken a) hc))
  · exact hexec.trans (congrArg _ (State.takeRecall_proof (s := s.markTaken a) hc (by rw [State.markTaken_state, hp])))
  · exact hexec.trans (congrArg _ (State.takeRecall_noNumber (State.markTaken_mans hm)
      (State.activeNumber_none (s := s.markTaken a) hk)))
  · exact hexec.trans (congrArg _ (State.takeRecall_shows (State.markTaken_mans hm)
      (State.activeNumber_some (s := s.markTaken a) hk hq)))

end Sys2Proof.Machine
end

section
/-! The watch channels: which events a channel matches, what it contributes in sequential mode and at a LABEL, the strongest
of the actions, and the notices of each combination of matches (R167 to R170). -/

namespace Sys2Proof.Machine

/-! ## Matching (R167) -/

/-- Items 1 to 5 of R167 for one channel: enabled, of the event's kind, and with the article, the clerk and the price. -/
def WatchChannel.Covers (w : WatchChannel) (ev : WatchEvent) (n price clerk : Nat) : Prop :=
  w.enable = true ∧ (if ev = .void then w.onVoid = true else w.onAdd = true)
    ∧ (w.mask = .exact ∧ n = w.article ∨ w.mask = .group16 ∧ n / 16 = w.article / 16
        ∨ w.mask = .group256 ∧ n / 256 = w.article / 256 ∨ w.mask = .any)
    ∧ (w.clerk = 0 ∨ w.clerk = clerk) ∧ w.threshold ≤ price

section
variable (w : WatchChannel) (ev : WatchEvent) (n price clerk : Nat)

theorem kindMatches_iff : kindMatches w ev = true ↔ if ev = .void then w.onVoid = true else w.onAdd = true := by
  cases ev <;> simp [kindMatches]

theorem maskMatches_iff : maskMatches w n = true ↔
    w.mask = .exact ∧ n = w.article ∨ w.mask = .group16 ∧ n / 16 = w.article / 16
      ∨ w.mask = .group256 ∧ n / 256 = w.article / 256 ∨ w.mask = .any := by
  unfold maskMatches
  cases w.mask <;> simp

theorem watchMatches_iff : watchMatches w ev n price clerk = true ↔ w.Covers ev n price clerk := by
  simp only [watchMatches, WatchChannel.Covers, Bool.and_eq_true, Bool.or_eq_true, beq_iff_eq, decide_eq_true_eq,
    kindMatches_iff, maskMatches_iff, and_assoc]

theorem sequentialInForce_iff (wu : WatchUnit) :
    sequentialInForce wu = true ↔ wu.b.enable = true ∧ wu.b.sequential = true :=
  Bool.and_eq_true_iff

/-- R169: at a LABEL a HOLD contributes NOTE, and every other action itself. -/
theorem contributed_eq (x : WatchAction) : contributed ev x = if ev = .label ∧ x = .hold then .note else x := by
  cases ev <;> cases x <;> rfl

end

/-! ## What each channel contributes (R168, R169) -/

section
variable {wu : WatchUnit} {ev : WatchEvent} {n price clerk : Nat} {aSeen : Bool}

theorem watchResult_a_none (h : ¬ wu.a.Covers ev n price clerk) : (watchResult wu ev n price clerk aSeen).a = none :=
  if_neg (mt (watchMatches_iff ..).mp h)

/-- In sequential mode an A match contributes NOTE, whatever its action. -/
theorem watchResult_a_sequential (h : wu.a.Covers ev n price clerk) (hseq : sequentialInForce wu = true) :
    (watchResult wu ev n price clerk aSeen).a = some .note :=
  (if_pos ((watchMatches_iff ..).mpr h)).trans (congrArg some (if_pos hseq))

theorem watchResult_a_alone (h : wu.a.Covers ev n price clerk) (hseq : ¬ sequentialInForce wu = true) :
    (watchResult wu ev n price clerk aSeen).a = some (contributed ev wu.a.action) :=
  (if_pos ((watchMatches_iff ..).mpr h)).trans (congrArg some (if_neg hseq))

/-- R167 item 6: in sequential mode channel B needs the A-seen mark as it stood before the event. -/
theorem watchResult_b_gate : (watchMatches wu.b ev n price clerk && (!sequentialInForce wu || aSeen)) = true ↔
    wu.b.Covers ev n price clerk ∧ (sequentialInForce wu = true → aSeen = true) := by
  rw [Bool.and_eq_true, watchMatches_iff]
  cases sequentialInForce wu <;> simp

theorem watchResult_b_some (h : wu.b.Covers ev n price clerk) (hseen : sequentialInForce wu = true → aSeen = true) :
    (watchResult wu ev n price clerk aSeen).b = some (contributed ev wu.b.action) :=
  if_pos (watchResult_b_gate.mpr ⟨h, hseen⟩)

theorem watchResult_b_none (h : ¬ wu.b.Covers ev n price clerk ∨ (sequentialInForce wu = true ∧ aSeen = false)) :
    (watchResult wu ev n price clerk aSeen).b = none := by
  refine if_neg fun hgate => ?_
  obtain ⟨hcovers, hseen⟩ := watchResult_b_gate.mp hgate
  rcases h with hn | ⟨hseq, hclear⟩
  · exact hn hcovers
  · exact Bool.false_ne_true (hclear.symm.trans (hseen hseq))

end

/-! ## The outcome, and the notices (R169, R170) -/

section
variable {r : WatchResult} {x y : WatchAction}

theorem WatchResult.outcome_none (ha : r.a = none) (hb : r.b = none) : r.outcome = none := by
  simp [outcome, has, ha, hb]

theorem WatchResult.outcome_onlyA (ha : r.a = some x) (hb : r.b = none) : r.outcome = some x := by
  cases x <;> simp [outcome, has, ha, hb]

theorem WatchResult.outcome_onlyB (ha : r.a = none) (hb : r.b = some x) : r.outcome = some x := by
  cases x <;> simp [outcome, has, ha, hb]

/-- The codes 1 NOTE, 2 HOLD and 3 BLOCK rise with the strength of the action (R169). -/
theorem WatchResult.outcome_stronger (ha : r.a = some x) (hb : r.b = some y) :
    r.outcome = some (if watchActionCode x < watchActionCode y then y else x) := by
  cases x <;> cases y <;> simp [outcome, has, ha, hb, watchActionCode]

variable {s : State} {ev : WatchEvent} {outcome scale clerk ticket n price position : Nat}

/-- The subjects of the notice of one match (R170). -/
def matchSubjects (ev : WatchEvent) (outcome scale clerk ticket n price position channel : Nat) (x : WatchAction) : List Nat :=
  [channel, watchEventCode ev, watchActionCode x, outcome, scale, clerk, ticket, n, price, position]

theorem State.noteMatches_onlyA (ha : r.a = some x) (hb : r.b = none) :
    s.noteMatches r ev outcome scale clerk ticket n price position =
      s.raise .watchMatch (matchSubjects ev outcome scale clerk ticket n price position 1 x) := by
  unfold State.noteMatches
  rw [ha, hb]
  rfl

theorem State.noteMatches_onlyB (ha : r.a = none) (hb : r.b = some x) :
    s.noteMatches r ev outcome scale clerk ticket n price position =
      s.raise .watchMatch (matchSubjects ev outcome scale clerk ticket n price position 2 x) := by
  unfold State.noteMatches
  rw [ha, hb]
  rfl

theorem State.noteMatches_both (ha : r.a = some x) (hb : r.b = some y) :
    s.noteMatches r ev outcome scale clerk ticket n price position =
      (s.raise .watchMatch (matchSubjects ev outcome scale clerk ticket n price position 1 x)).raise .watchMatch
        (matchSubjects ev outcome scale clerk ticket n price position 2 y) := by
  unfold State.noteMatches
  rw [ha, hb]
  rfl

end

/-- Settles O52: the matcher is R167's items in another spelling, and each result of the two channels has its own outcome
and notices. -/
theorem watchesMatch : Obligations.WatchesMatch := by
  refine ⟨fun wu ev n price clerk aSeen => ?_, fun w => ⟨rfl, rfl⟩,
    fun s r ev outcome scale clerk ticket n price position => ?_⟩
  · intro covers sequential contributes r
    have hseq : sequentialInForce wu = true ↔ sequential := sequentialInForce_iff wu
    have hcontributes : ∀ x, contributed ev x = contributes x := contributed_eq ev
    refine ⟨watchResult_a_none, fun hc hs => watchResult_a_sequential hc (hseq.mpr hs), fun hc hs => ?_, fun hc hs => ?_,
      fun h => ?_, WatchResult.outcome_none, fun _ => WatchResult.outcome_onlyA, fun _ => WatchResult.outcome_onlyB,
      fun _ _ => WatchResult.outcome_stronger⟩
    · rw [← hcontributes]
      exact watchResult_a_alone hc (mt hseq.mp hs)
    · rw [← hcontributes]
      exact watchResult_b_some hc (fun h => hs (hseq.mp h))
    · exact watchResult_b_none (h.imp_right (And.imp_left hseq.mpr))
  · intro t subjects
    have hsubjects : subjects = matchSubjects ev outcome scale clerk ticket n price position := by
      funext channel x
      cases ev <;> rfl
    rw [hsubjects]
    exact ⟨fun ha hb => State.noteMatches_of_no_match s ⟨ha, hb⟩ .., fun _ => State.noteMatches_onlyA,
      fun _ => State.noteMatches_onlyB, fun _ _ => State.noteMatches_both⟩

end Sys2Proof.Machine
end

section
/-! The invariant of the Totals Unit: the equalities of R173 in an unmarked bank and the clear bank of R174. -/

namespace Sys2Proof.Machine

/-- Settles O11: the sound Totals Unit is one part of what every step keeps; State.account_sound, State.totClose_sound and
State.totClear_sound are the operations that write a bank. -/
theorem totalsInvariant : Obligations.TotalsInvariant :=
  fun _ _ hs hstep => (step_keeps hstep).totals hs

end Sys2Proof.Machine
end

section
/-! What the live bank takes of a posting and of an accounting (R175 to R177), and TOT.CLOSE and TOT.CLEAR (R178, R180). -/

namespace Sys2Proof.Machine

/-! ## Additions to one row -/

section
variable {α : Type} {plus sum : α → α → α} {held : α → α → Bool} {r : α} {x y : Option α}

/-- A row after an addition, or after none. -/
def gained (plus : α → α → α) (r : α) : Option α → α
  | some d => plus r d
  | none => r

/-- An addition to a row that is held at a maximum. -/
def heldIn (held : α → α → Bool) (r : α) (x : Option α) : Prop := ∃ d, x = some d ∧ held r d = true

/-- Two additions to a row come to their sum, which is held exactly where one of the two is. -/
structure Sums (plus : α → α → α) (held : α → α → Bool) (sum : α → α → α) : Prop where
  plus_sum : ∀ r d e, plus r (sum d e) = plus (plus r d) e
  held_sum : ∀ r d e, held r (sum d e) = (held r d || held (plus r d) e)

theorem Sums.gained_merge (h : Sums plus held sum) :
    gained plus r (x.merge sum y) = gained plus (gained plus r x) y := by
  cases x <;> cases y <;> simp [gained, h.plus_sum]

theorem Sums.heldIn_merge (h : Sums plus held sum) :
    heldIn held r (x.merge sum y) ↔ heldIn held r x ∨ heldIn held (gained plus r x) y := by
  cases x <;> cases y <;> simp [heldIn, gained, h.held_sum]

/-- The addition of a row's entry, at its key alone. -/
def onlyAt (e : Option (Nat × α)) (n : Nat) : Option α := e.bind fun e => if n = e.1 then some e.2 else none

@[simp] theorem onlyAt_none (n : Nat) : onlyAt (none : Option (Nat × α)) n = none := rfl

@[simp] theorem onlyAt_some (e : Nat × α) (n : Nat) : onlyAt (some e) n = if n = e.1 then some e.2 else none := rfl

@[simp] theorem heldIn_none : ¬ heldIn held r none := by
  simp [heldIn]

theorem heldIn_onlyAt (read : Nat → α) (e : Nat × α) (n : Nat) :
    heldIn held (read n) (onlyAt (some e) n) ↔ n = e.1 ∧ held (read e.1) e.2 = true := by
  by_cases h : n = e.1 <;> simp [heldIn, h]

end

/-- R177: two additions held at a maximum come to their sum held there. -/
theorem satAdd_add (top x d e : Nat) : satAdd top x (d + e) = satAdd top (satAdd top x d) e := by
  unfold satAdd
  omega

theorem holds_iff (top x d : Nat) : holds top x d = true ↔ top < x + d := decide_eq_true_iff

theorem holds_add (top x d e : Nat) : holds top x (d + e) = (holds top x d || holds top (satAdd top x d) e) := by
  rw [Bool.eq_iff_iff, Bool.or_eq_true, holds_iff, holds_iff, holds_iff]
  unfold satAdd
  omega

def ArticleRow.sum (d e : ArticleRow) : ArticleRow :=
  { items := d.items + e.items, voidItems := d.voidItems + e.voidItems, weight := d.weight + e.weight,
    value := d.value + e.value, voidValue := d.voidValue + e.voidValue }

def ClerkRow.sum (d e : ClerkRow) : ClerkRow :=
  { tickets := d.tickets + e.tickets, items := d.items + e.items, voidItems := d.voidItems + e.voidItems,
    abandoned := d.abandoned + e.abandoned, value := d.value + e.value, voidValue := d.voidValue + e.voidValue,
    abandonedValue := d.abandonedValue + e.abandonedValue }

def ScaleRow.sum (d e : ScaleRow) : ScaleRow :=
  { items := d.items + e.items, labels := d.labels + e.labels, weight := d.weight + e.weight, value := d.value + e.value }

def GrandRow.sum (d e : GrandRow) : GrandRow :=
  { tickets := d.tickets + e.tickets, items := d.items + e.items, voidItems := d.voidItems + e.voidItems,
    abandoned := d.abandoned + e.abandoned, labels := d.labels + e.labels, value := d.value + e.value,
    voidValue := d.voidValue + e.voidValue, abandonedValue := d.abandonedValue + e.abandonedValue }

theorem ArticleRow.sums : Sums ArticleRow.plus ArticleRow.held ArticleRow.sum where
  plus_sum _ _ _ := by simp only [plus, sum, satAdd_add]
  held_sum _ _ _ := by simp only [held, plus, sum, holds_add]; ac_rfl

theorem ClerkRow.sums : Sums ClerkRow.plus ClerkRow.held ClerkRow.sum where
  plus_sum _ _ _ := by simp only [plus, sum, satAdd_add]
  held_sum _ _ _ := by simp only [held, plus, sum, holds_add]; ac_rfl

theorem ScaleRow.sums : Sums ScaleRow.plus ScaleRow.held ScaleRow.sum where
  plus_sum _ _ _ := by simp only [plus, sum, satAdd_add]
  held_sum _ _ _ := by simp only [held, plus, sum, holds_add]; ac_rfl

theorem GrandRow.sums : Sums GrandRow.plus GrandRow.held GrandRow.sum where
  plus_sum _ _ _ := by simp only [plus, sum, satAdd_add]
  held_sum _ _ _ := by simp only [held, plus, sum, holds_add]; ac_rfl

/-! ## Gains in sequence -/

theorem Gains.ext_rows {g h : Gains} (ha : ∀ n, g.articles n = h.articles n) (hc : ∀ n, g.clerks n = h.clerks n)
    (hs : ∀ n, g.scales n = h.scales n) (hg : g.grand = h.grand) : g = h := by
  cases g
  cases h
  simp only [Gains.mk.injEq]
  exact ⟨funext ha, funext hc, funext hs, hg⟩

/-- The gains of two additions, one after the other. -/
def Gains.andThen (g h : Gains) : Gains :=
  { articles := fun n => (g.articles n).merge ArticleRow.sum (h.articles n)
    clerks := fun n => (g.clerks n).merge ClerkRow.sum (h.clerks n)
    scales := fun n => (g.scales n).merge ScaleRow.sum (h.scales n)
    grand := g.grand.sum h.grand }

/-- What a posting under way has taken: the gains in its rows, and the rows that held one of them. -/
structure Posting.Gained (p q : Posting) (g : Gains) : Prop where
  period : q.bank.period = p.bank.period
  saturated : q.bank.saturated = p.bank.saturated
  articles : ∀ n, Tbl.read ArticleRow.clear q.bank.articles n =
    gained ArticleRow.plus (Tbl.read ArticleRow.clear p.bank.articles n) (g.articles n)
  clerks : ∀ n, Tbl.read ClerkRow.clear q.bank.clerks n =
    gained ClerkRow.plus (Tbl.read ClerkRow.clear p.bank.clerks n) (g.clerks n)
  scales : ∀ n, Tbl.read ScaleRow.clear q.bank.scales n =
    gained ScaleRow.plus (Tbl.read ScaleRow.clear p.bank.scales n) (g.scales n)
  grand : q.bank.grand = p.bank.grand.plus g.grand
  held : ∀ kind index, (kind, index) ∈ q.held ↔ (kind, index) ∈ p.held ∨ g.heldAt p.bank kind index

theorem Gains.heldAt_iff (g : Gains) (b : Bank) (kind index : Nat) : g.heldAt b kind index ↔
    (kind = 1 ∧ heldIn ArticleRow.held (Tbl.read ArticleRow.clear b.articles index) (g.articles index))
      ∨ (kind = 2 ∧ heldIn ClerkRow.held (Tbl.read ClerkRow.clear b.clerks index) (g.clerks index))
      ∨ (kind = 3 ∧ heldIn ScaleRow.held (Tbl.read ScaleRow.clear b.scales index) (g.scales index))
      ∨ (kind = 4 ∧ index = 0 ∧ b.grand.held g.grand = true) := Iff.rfl

theorem Posting.Gained.heldAt_andThen {p q : Posting} {g : Gains} (hg : p.Gained q g) (h : Gains) (kind index : Nat) :
    (g.andThen h).heldAt p.bank kind index ↔ g.heldAt p.bank kind index ∨ h.heldAt q.bank kind index := by
  simp only [Gains.heldAt_iff, hg.articles, hg.clerks, hg.scales, hg.grand]
  simp only [Gains.andThen, ArticleRow.sums.heldIn_merge, ClerkRow.sums.heldIn_merge, ScaleRow.sums.heldIn_merge,
    GrandRow.sums.held_sum, Bool.or_eq_true]
  tauto

theorem Posting.Gained.andThen {p q u : Posting} {g h : Gains} (hg : p.Gained q g) (hh : q.Gained u h) :
    p.Gained u (g.andThen h) where
  period := hh.period.trans hg.period
  saturated := hh.saturated.trans hg.saturated
  articles n := by rw [hh.articles, hg.articles, Gains.andThen, ArticleRow.sums.gained_merge]
  clerks n := by rw [hh.clerks, hg.clerks, Gains.andThen, ClerkRow.sums.gained_merge]
  scales n := by rw [hh.scales, hg.scales, Gains.andThen, ScaleRow.sums.gained_merge]
  grand := by rw [hh.grand, hg.grand, Gains.andThen, GrandRow.sums.plus_sum]
  held kind index := by rw [hh.held, hg.held, hg.heldAt_andThen, or_assoc]

/-! ## One addition to each kind of row -/

/-- At most one article row, one clerk row, at most one scale row and the grand row gain. -/
def Gains.ofRows (article : Option (Nat × ArticleRow)) (clerk : Nat × ClerkRow) (scale : Option (Nat × ScaleRow))
    (grand : GrandRow) : Gains :=
  { articles := onlyAt article, clerks := onlyAt (some clerk), scales := onlyAt scale, grand := grand }

/-- The same additions made to a bank; the additions of Posting.addItem and of the end of Posting.addTicket are of this
shape. -/
def Posting.addRows (p : Posting) (article : Option (Nat × ArticleRow)) (clerk : Nat × ClerkRow)
    (scale : Option (Nat × ScaleRow)) (grand : GrandRow) : Posting :=
  let q := article.elim p (fun e => p.addArticle e.1 e.2)
  let q := q.addClerk clerk.1 clerk.2
  (scale.elim q (fun e => q.addScale e.1 e.2)).addGrand grand

theorem mem_heldRow {kind index k i : Nat} {h : Bool} {l : List (Nat × Nat)} :
    (k, i) ∈ heldRow kind index h l ↔ (k, i) ∈ l ∨ k = kind ∧ i = index ∧ h = true := by
  unfold heldRow
  cases h <;> simp

/-- A row of a table after an addition at one key. -/
theorem Tbl.read_gained {α : Type} [DecidableEq α] (plus : α → α → α) (d : α) (t : Tbl α) (k n : Nat) (v : α) :
    Tbl.read d (Tbl.write d t k (plus (Tbl.read d t k) v)) n = gained plus (Tbl.read d t n) (onlyAt (some (k, v)) n) := by
  rw [Tbl.read_write, onlyAt_some]
  split
  · next h => rw [h]; rfl
  · rfl

theorem Posting.addRows_gained (p : Posting) (article : Option (Nat × ArticleRow)) (clerk : Nat × ClerkRow)
    (scale : Option (Nat × ScaleRow)) (grand : GrandRow) :
    p.Gained (p.addRows article clerk scale grand) (Gains.ofRows article clerk scale grand) where
  period := by cases article <;> cases scale <;> rfl
  saturated := by cases article <;> cases scale <;> rfl
  articles n := by
    cases article
    · cases scale <;> rfl
    · cases scale <;> exact Tbl.read_gained ..
  clerks n := by cases article <;> cases scale <;> exact Tbl.read_gained ..
  scales n := by
    cases scale
    · cases article <;> rfl
    · cases article <;> exact Tbl.read_gained ..
  grand := by cases article <;> cases scale <;> rfl
  held kind index := by
    rw [Gains.heldAt_iff]
    cases article <;> cases scale <;>
      simp [Posting.addRows, Posting.addArticle, Posting.addClerk, Posting.addScale, Posting.addGrand, mem_heldRow,
        Gains.ofRows, -onlyAt_some, heldIn_onlyAt (Tbl.read ArticleRow.clear p.bank.articles),
        heldIn_onlyAt (Tbl.read ClerkRow.clear p.bank.clerks), heldIn_onlyAt (Tbl.read ScaleRow.clear p.bank.scales),
        or_assoc]

/-! ## The additions of R175 and R176 -/

/-! What one item of a printed ticket adds to each kind of row (R175): a void item to the void fields, any other also to
the row of its scale. -/

def itemArticle (i : Item) : ArticleRow :=
  if i.voided then { ArticleRow.clear with voidItems := 1, voidValue := i.price }
  else { ArticleRow.clear with items := 1, weight := itemWeight i, value := i.price }

def itemClerk (i : Item) : ClerkRow :=
  if i.voided then { ClerkRow.clear with voidItems := 1, voidValue := i.price }
  else { ClerkRow.clear with items := 1, value := i.price }

def itemScale (i : Item) : ScaleRow :=
  { ScaleRow.clear with items := 1, weight := itemWeight i, value := i.price }

def itemGrand (i : Item) : GrandRow :=
  if i.voided then { GrandRow.clear with voidItems := 1, voidValue := i.price }
  else { GrandRow.clear with items := 1, value := i.price }

def itemGains (c : Nat) (i : Item) : Gains :=
  Gains.ofRows (some (i.article, itemArticle i)) (c, itemClerk i) (if i.voided then none else some (i.scale, itemScale i))
    (itemGrand i)

theorem Posting.addItem_eq (p : Posting) (c : Nat) (i : Item) : p.addItem c i =
    p.addRows (some (i.article, itemArticle i)) (c, itemClerk i) (if i.voided then none else some (i.scale, itemScale i))
      (itemGrand i) := by
  unfold Posting.addItem itemArticle itemClerk itemGrand
  cases i.voided <;> rfl

theorem Posting.addItem_gained (p : Posting) (c : Nat) (i : Item) : p.Gained (p.addItem c i) (itemGains c i) := by
  rw [Posting.addItem_eq]
  exact Posting.addRows_gained ..

@[simp] theorem prices_nil : prices [] = 0 := rfl

@[simp] theorem prices_cons (i : Item) (l : List Item) : prices (i :: l) = i.price + prices l := by
  simp [prices]

@[simp] theorem netGrams_nil : netGrams [] = 0 := rfl

@[simp] theorem netGrams_cons (i : Item) (l : List Item) : netGrams (i :: l) = itemWeight i + netGrams l := by
  by_cases h : i.mode = .byWeight <;> simp [netGrams, itemWeight, h]

/-! The rows of the table of R175, as sums over the items of the ticket. -/

/-- The row of article n. -/
def articleSums (l : List Item) (n : Nat) : ArticleRow :=
  let x := (l.filter (fun i => !i.voided)).filter (fun i => i.article == n)
  let y := (l.filter (·.voided)).filter (fun i => i.article == n)
  { items := x.length, voidItems := y.length, weight := netGrams x, value := prices x, voidValue := prices y }

/-- The items that were weighed at scale b and not voided. -/
def soldAt (l : List Item) (b : Nat) : List Item := (l.filter (fun i => !i.voided)).filter (fun i => i.scale == b)

/-- The row of scale b, for a ticket printed at scale a. -/
def scaleSums (l : List Item) (a b : Nat) : ScaleRow :=
  { items := (soldAt l b).length, labels := if b = a then 1 else 0, weight := netGrams (soldAt l b),
    value := prices (soldAt l b) }

section
variable (k : Ticket) (l : List Item) (i : Item) (a b n : Nat)

theorem articleSums_absent (h : l.any (fun i => i.article == n) = false) : articleSums l n = ArticleRow.clear := by
  have hnone : ∀ (p : Item → Bool), (l.filter p).filter (fun i => i.article == n) = [] := fun p =>
    List.filter_eq_nil_iff.mpr fun x hx => List.any_eq_false.mp h x (List.mem_of_mem_filter hx)
  simp only [articleSums, hnone]
  rfl

theorem articleSums_cons : articleSums (i :: l) n =
    if n = i.article then (itemArticle i).sum (articleSums l n) else articleSums l n := by
  by_cases hn : n = i.article
  · cases hv : i.voided <;>
      simp [articleSums, itemArticle, ArticleRow.sum, ArticleRow.clear, hn, hv, Nat.add_comm]
  · cases hv : i.voided <;> simp [articleSums, hv, hn, Ne.symm hn]

theorem soldAt_cons : soldAt (i :: l) b = if i.voided = false ∧ b = i.scale then i :: soldAt l b else soldAt l b := by
  by_cases hb : b = i.scale
  · cases hv : i.voided <;> simp [soldAt, hv, hb]
  · cases hv : i.voided <;> simp [soldAt, hv, hb, Ne.symm hb]

/-- A printed ticket counts itself and its TOTAL label, whatever its items. -/
theorem postingGains_nil : postingGains { k with items := [] } a =
    Gains.ofRows none (k.clerk, { ClerkRow.clear with tickets := 1 }) (some (a, { ScaleRow.clear with labels := 1 }))
      { GrandRow.clear with tickets := 1, labels := 1 } := by
  refine Gains.ext_rows (fun n => rfl) (fun n => rfl) (fun n => ?_) rfl
  by_cases h : n = a <;> simp [postingGains, Gains.ofRows, ScaleRow.clear, h]

theorem postingGains_articles : (postingGains { k with items := l } a).articles n =
    if l.any (fun i => i.article == n) then some (articleSums l n) else none := rfl

theorem postingGains_scales : (postingGains { k with items := l } a).scales b =
    if b = a ∨ soldAt l b ≠ [] then some (scaleSums l a b) else none := rfl

theorem ArticleRow.sum_clear (d : ArticleRow) : d.sum ArticleRow.clear = d := rfl

theorem ScaleRow.sum_clear (d : ScaleRow) : d.sum ScaleRow.clear = d := rfl

theorem scaleSums_absent (ha : b ≠ a) (hl : soldAt l b = []) : scaleSums l a b = ScaleRow.clear := by
  simp only [scaleSums, hl, if_neg ha]
  rfl

theorem scaleSums_cons (h : soldAt (i :: l) b = i :: soldAt l b) :
    scaleSums (i :: l) a b = (itemScale i).sum (scaleSums l a b) := by
  simp [scaleSums, h, itemScale, ScaleRow.sum, ScaleRow.clear, Nat.add_comm]

theorem postingGains_articles_cons : (postingGains { k with items := i :: l } a).articles n =
    (onlyAt (some (i.article, itemArticle i)) n).merge ArticleRow.sum
      ((postingGains { k with items := l } a).articles n) := by
  simp only [postingGains_articles, articleSums_cons]
  by_cases hn : n = i.article
  · cases hl : l.any (fun i => i.article == n)
    · simp [hn, articleSums_absent l i.article (hn ▸ hl), ArticleRow.sum_clear]
    · simp [hn]
  · simp [hn, Ne.symm hn]

theorem postingGains_clerks_cons : (postingGains { k with items := i :: l } a).clerks n =
    (onlyAt (some (k.clerk, itemClerk i)) n).merge ClerkRow.sum ((postingGains { k with items := l } a).clerks n) := by
  by_cases hn : n = k.clerk
  · cases hv : i.voided <;> simp [postingGains, itemClerk, ClerkRow.clear, ClerkRow.sum, hv, hn, Nat.add_comm]
  · simp [postingGains, hn]

theorem postingGains_scales_cons : (postingGains { k with items := i :: l } a).scales b =
    (onlyAt (if i.voided then none else some (i.scale, itemScale i)) b).merge ScaleRow.sum
      ((postingGains { k with items := l } a).scales b) := by
  simp only [postingGains_scales]
  have hcons := soldAt_cons l i b
  by_cases h : i.voided = false ∧ b = i.scale
  · rw [if_pos h] at hcons
    obtain ⟨hv, hb⟩ := h
    rw [hcons, scaleSums_cons l i a b hcons]
    by_cases hl : b = a ∨ soldAt l b ≠ []
    · simp [hv, ← hb, hl]
    · obtain ⟨ha, hl⟩ := not_or.mp hl
      simp [hv, ← hb, ha, hl, scaleSums_absent l a b ha (not_not.mp hl), ScaleRow.sum_clear]
  · rw [if_neg h] at hcons
    have hnone : onlyAt (if i.voided then none else some (i.scale, itemScale i)) b = none := by
      split
      · rfl
      · next hv => simpa using fun hb => h ⟨Bool.not_eq_true _ ▸ hv, hb⟩
    rw [hnone, hcons, scaleSums, hcons]
    simp [scaleSums]

theorem postingGains_grand_cons : (postingGains { k with items := i :: l } a).grand =
    (itemGrand i).sum (postingGains { k with items := l } a).grand := by
  cases hv : i.voided <;> simp [postingGains, itemGrand, GrandRow.clear, GrandRow.sum, hv, Nat.add_comm]

/-- An item in front adds its own gains. -/
theorem postingGains_cons : postingGains { k with items := i :: l } a =
    (itemGains k.clerk i).andThen (postingGains { k with items := l } a) :=
  Gains.ext_rows (fun n => postingGains_articles_cons k l i a n) (fun n => postingGains_clerks_cons k l i a n)
    (fun b => postingGains_scales_cons k l i a b) (postingGains_grand_cons k l i a)

theorem Posting.addTicket_nil (p : Posting) : p.addTicket { k with items := [] } a =
    p.addRows none (k.clerk, { ClerkRow.clear with tickets := 1 }) (some (a, { ScaleRow.clear with labels := 1 }))
      { GrandRow.clear with tickets := 1, labels := 1 } := rfl

/-- A posting adds the table of R175 to the bank, by induction on the items. -/
theorem Posting.addTicket_gained (p : Posting) :
    p.Gained (p.addTicket { k with items := l } a) (postingGains { k with items := l } a) := by
  induction l generalizing p with
  | nil =>
    rw [postingGains_nil, Posting.addTicket_nil]
    exact Posting.addRows_gained ..
  | cons i rest ih =>
    rw [postingGains_cons]
    exact (Posting.addItem_gained p k.clerk i).andThen (ih (p.addItem k.clerk i))

/-- R176: an accounting is one addition to the rows of the clerk and of the grand total. -/
theorem Posting.addAbandoned_gained (p : Posting) : p.Gained (p.addAbandoned k) (abandonedGains k) :=
  Posting.addRows_gained p none (k.clerk, { ClerkRow.clear with abandoned := 1, abandonedValue := k.total }) none
    { GrandRow.clear with abandoned := 1, abandonedValue := k.total }

end

/-! ## The live bank and the notice (R174, R177) -/

/-- The first row held is one of the rows held, and no other comes before it by kind and index. -/
theorem firstHeld_some {l : List (Nat × Nat)} {y : Nat × Nat} (h : firstHeld l = some y) :
    y ∈ l ∧ ∀ x ∈ l, y.1 < x.1 ∨ y.1 = x.1 ∧ y.2 ≤ x.2 := by
  induction l generalizing y with
  | nil => cases h
  | cons z rest ih =>
    unfold firstHeld at h
    cases hr : firstHeld rest with
    | none =>
      simp only [hr, Option.some.injEq] at h
      simp [firstHeld_none hr, h]
    | some w =>
      obtain ⟨hmem, hleast⟩ := ih hr
      simp only [hr] at h
      split at h <;> obtain rfl := Option.some.inj h
      · refine ⟨List.mem_cons_of_mem _ hmem, fun x hx => ?_⟩
        rcases List.mem_cons.mp hx with rfl | hx
        · omega
        · exact hleast x hx
      · refine ⟨List.mem_cons_self, fun x hx => ?_⟩
        rcases List.mem_cons.mp hx with rfl | hx
        · exact .inr ⟨rfl, le_refl _⟩
        · have := hleast x hx
          omega

section
variable (s : State) (b : Bank)

@[simp] theorem State.liveBank_setLiveBank : (s.setLiveBank b).liveBank = b := by
  unfold State.setLiveBank State.liveBank
  cases h : s.tu.live <;> simp [h]

@[simp] theorem State.live_setLiveBank : (s.setLiveBank b).tu.live = s.tu.live := by
  unfold State.setLiveBank
  cases h : s.tu.live <;> simp [h]

@[simp] theorem State.frozen_setLiveBank : (s.setLiveBank b).tu.frozen = s.tu.frozen := by
  unfold State.setLiveBank
  cases s.tu.live <;> rfl

@[simp] theorem State.otherBank_setLiveBank :
    (s.setLiveBank b).tu.bank (otherBank s.tu.live) = s.tu.bank (otherBank s.tu.live) := by
  unfold State.setLiveBank
  cases s.tu.live <;> rfl

end

section
variable {s : State} {f : Posting → Posting} {cause ticket : Nat}

/-- The posting under way that an accounting makes of the live bank. -/
def State.posted (s : State) (f : Posting → Posting) : Posting := f { bank := s.liveBank, held := [] }

theorem State.account_none (h : firstHeld (s.posted f).held = none) :
    s.account cause ticket f = s.setLiveBank (s.posted f).bank := by
  unfold State.posted at h
  simp only [State.account, State.posted, h]

theorem State.account_marked {y : Nat × Nat} (h : firstHeld (s.posted f).held = some y) (hs : s.liveBank.saturated = true) :
    s.account cause ticket f = s.setLiveBank { (s.posted f).bank with saturated := true } := by
  unfold State.posted at h
  simp only [State.account, State.posted, h, hs, if_true]

theorem State.account_notice {y : Nat × Nat} (h : firstHeld (s.posted f).held = some y)
    (hs : s.liveBank.saturated = false) :
    s.account cause ticket f = (s.setLiveBank { (s.posted f).bank with saturated := true }).raise .totalsSaturated
      [bankCode s.tu.live, s.liveBank.period, cause, ticket, y.1, y.2] := by
  unfold State.posted at h
  simp only [State.account, State.posted, h, hs, Bool.false_eq_true, if_false]

/-- R177: the banks after an accounting, the SATURATED mark set where an addition was held. -/
theorem State.account_tu : (s.account cause ticket f).tu = (s.setLiveBank { (s.posted f).bank with
    saturated := (s.posted f).bank.saturated || !(s.posted f).held.isEmpty }).tu := by
  cases h : firstHeld (s.posted f).held with
  | none =>
    rw [State.account_none h, firstHeld_none h]
    simp
  | some y =>
    have hne : (s.posted f).held.isEmpty = false := by
      simpa using List.ne_nil_of_mem (firstHeld_some h).1
    rw [hne, Bool.not_false, Bool.or_true]
    cases hs : s.liveBank.saturated
    · rw [State.account_notice h hs]
      rfl
    · rw [State.account_marked h hs]

theorem State.liveBank_of_tu {t u : State} (h : u.tu = t.tu) : u.liveBank = t.liveBank := by
  unfold State.liveBank
  rw [h]

theorem State.account_liveBank : (s.account cause ticket f).liveBank = { (s.posted f).bank with
    saturated := (s.posted f).bank.saturated || !(s.posted f).held.isEmpty } :=
  (State.liveBank_of_tu State.account_tu).trans (State.liveBank_setLiveBank ..)

/-- A notice raised reads the Office Port alone. -/
theorem State.account_notice_op {y : Nat × Nat} (h : firstHeld (s.posted f).held = some y)
    (hs : s.liveBank.saturated = false) : (s.account cause ticket f).op =
      (s.raise .totalsSaturated [bankCode s.tu.live, s.liveBank.period, cause, ticket, y.1, y.2]).op := by
  rw [State.account_notice h hs]
  exact State.raise_op_congr (State.setLiveBank_op ..) _ _

theorem State.account_quiet_op (h : s.liveBank.saturated = true ∨ (s.posted f).held = []) :
    (s.account cause ticket f).op = s.op := by
  cases hy : firstHeld (s.posted f).held with
  | none => rw [State.account_none hy, State.setLiveBank_op]
  | some y =>
    have hs : s.liveBank.saturated = true :=
      h.resolve_right (List.ne_nil_of_mem (firstHeld_some hy).1)
    rw [State.account_marked hy hs, State.setLiveBank_op]

/-- An accounting whose additions to the live bank are the gains g leaves what R175 to R177 say. -/
theorem State.account_accounted {g : Gains} (h : Posting.Gained { bank := s.liveBank, held := [] } (s.posted f) g) :
    s.Accounted (s.account cause ticket f) cause ticket g := by
  have hheld : ∀ kind index, (kind, index) ∈ (s.posted f).held ↔ g.heldAt s.liveBank kind index := by
    simpa using h.held
  refine ⟨State.account_changes cause ticket f (Changes.refl _ s) rfl, ?_, ?_, ?_, ?_, ?_, ?_, ?_, ?_, ?_, ?_⟩
  · simp [State.account_tu]
  · simp [State.account_tu]
  · rw [State.account_liveBank]
    exact h.period
  · intro n
    rw [State.account_liveBank]
    refine (h.articles n).trans ?_
    cases g.articles n <;> rfl
  · intro n
    rw [State.account_liveBank]
    refine (h.clerks n).trans ?_
    cases g.clerks n <;> rfl
  · intro n
    rw [State.account_liveBank]
    refine (h.scales n).trans ?_
    cases g.scales n <;> rfl
  · rw [State.account_liveBank]
    exact h.grand
  · rw [State.account_liveBank, h.saturated, Bool.or_eq_true, Bool.not_eq_true', List.isEmpty_eq_false_iff_exists_mem]
    simp [Prod.exists, hheld]
  · intro hs kind index hat hleast
    have hmem := (hheld kind index).mpr hat
    cases hy : firstHeld (s.posted f).held with
    | none => exact absurd (firstHeld_none hy ▸ hmem) List.not_mem_nil
    | some y =>
      obtain ⟨hy1, hy2⟩ := firstHeld_some hy
      have hfirst : y.1 < kind ∨ y.1 = kind ∧ y.2 ≤ index := hy2 _ hmem
      have hother := hleast y.1 y.2 ((hheld y.1 y.2).mp hy1)
      obtain ⟨hkind, hindex⟩ : kind = y.1 ∧ index = y.2 := by omega
      rw [hkind, hindex]
      exact State.account_notice_op hy hs
  · rintro (hs | hn)
    · exact State.account_quiet_op (.inl hs)
    · exact State.account_quiet_op
        (.inr (List.eq_nil_iff_forall_not_mem.mpr fun x hx => hn x.1 x.2 ((hheld x.1 x.2).mp hx)))

theorem State.post_accounted (s : State) (k : Ticket) (a : Nat) :
    s.Accounted (s.post k a) 1 k.number (postingGains k a) :=
  State.account_accounted (Posting.addTicket_gained k k.items a _)

theorem State.accountAbandoned_accounted (s : State) (k : Ticket) :
    s.Accounted (s.accountAbandoned k) 2 k.number (abandonedGains k) :=
  State.account_accounted (Posting.addAbandoned_gained k _)

end

/-! ## TOT.CLOSE and TOT.CLEAR (R178, R180) -/

section
variable {s u : State} {r : Answer}

theorem State.exec_totClose (hr : s.op.resetLow = false) (h : s.totClose [] = (u, r)) :
    exec (.totClose []) s = .next (u.responded 112 r.result r.clamped r.body 3) :=
  congrArg Host.Outcome.next (State.transact_responds hr (by simp) h)

theorem State.exec_totClear (hr : s.op.resetLow = false) (h : s.totClear [] = (u, r)) :
    exec (.totClear []) s = .next (u.responded 114 r.result r.clamped r.body 3) :=
  congrArg Host.Outcome.next (State.transact_responds hr (by simp) h)

theorem State.totClose_busy (hf : s.tu.frozen = true) : s.totClose [] = (s, .refuse .busy) := by
  simp [State.totClose, hf]

theorem State.totClear_wrongState (hf : s.tu.frozen = false) : s.totClear [] = (s, .refuse .wrongState) := by
  simp [State.totClear, hf]

/-- The period number that follows one of 16 bits (R178). -/
theorem nextPeriod_eq {p : Nat} (hp : p ≤ 65535) : nextPeriod p = if p = 65535 then 0 else p + 1 := by
  unfold nextPeriod
  split <;> omega

/-- The banks after TOT.CLOSE, the new live bank under period q. -/
def TotalsUnit.closed (tu : TotalsUnit) (q : Nat) : TotalsUnit :=
  match tu.live with
  | .a => { tu with b := { tu.b with period := q }, live := .b, frozen := true }
  | .b => { tu with a := { tu.a with period := q }, live := .a, frozen := true }

theorem State.totClose_closes (hf : s.tu.frozen = false) : s.totClose [] =
    ({ s with tu := s.tu.closed (nextPeriod s.liveBank.period) },
      .ok (chars 1 (bankCode s.tu.live) ++ chars 2 s.liveBank.period ++ chars 1 (bankCode (otherBank s.tu.live))
        ++ chars 2 (nextPeriod s.liveBank.period))) := by
  rw [State.liveBank_eq]
  cases hl : s.tu.live <;>
    simp [State.totClose, hf, hl, TotalsUnit.closed, TotalsUnit.setBank, TotalsUnit.bank, otherBank]

/-- The banks after TOT.CLEAR. -/
def TotalsUnit.cleared (tu : TotalsUnit) : TotalsUnit :=
  match tu.live with
  | .a => { tu with b := Bank.clear, frozen := false }
  | .b => { tu with a := Bank.clear, frozen := false }

theorem State.totClear_clears (hf : s.tu.frozen = true) : s.totClear [] =
    ({ s with tu := s.tu.cleared }, .ok (chars 1 (bankCode (otherBank s.tu.live))
      ++ chars 2 (s.tu.bank (otherBank s.tu.live)).period)) := by
  cases hl : s.tu.live <;> simp [State.totClear, hf, hl, TotalsUnit.cleared, TotalsUnit.setBank, otherBank]

end

/-- Settles O35: the additions come to the gains of the two tables, and the two requests are computed case by case. -/
theorem periodsCloseAndClear : Obligations.PeriodsCloseAndClear := by
  refine ⟨State.post_accounted, State.accountAbandoned_accounted, fun top x d => ⟨rfl, holds_iff top x d⟩,
    fun s hr => ⟨fun hf => ?_, fun hf hp => ?_, fun hf => ?_, fun hf => ?_⟩⟩
  · exact State.exec_totClose hr (State.totClose_busy hf)
  · rw [← nextPeriod_eq hp]
    exact State.exec_totClose hr (State.totClose_closes hf)
  · exact State.exec_totClear hr (State.totClear_wrongState hf)
  · exact State.exec_totClear hr (State.totClear_clears hf)

end Sys2Proof.Machine
end

section
/-! A step and what it keeps: every command completes and leaves the waiting ones, the part after power-on is sound, and
the lines and the settings stay as their rules say (R183, R185, R187, R188, R190). -/

namespace Sys2Proof.Machine

/-! ## Every command completes (R184) -/

theorem exec_next (i : Instr) (s : State) : ∃ t, exec i s = .next t := by
  cases i <;> exact ⟨_, rfl⟩

/-- Every block but the queue of pending commands. -/
def partBlocks : List Block := [.lc, .we, .art, .cd, .sc, .qc, .wu, .tu, .op, .free]

/-- A command changes the blocks of the part and not the queue of pending commands. -/
theorem exec_changes {i : Instr} {s t : State} (h : exec i s = .next t) : Changes partBlocks s t := by
  cases i <;> obtain rfl := Host.Outcome.next.inj h
  all_goals ((repeat' split) <;> simp (maxDischargeDepth := 60) [partBlocks])

/-- Settles O3: the frame of the part leaves the queue of pending commands out. -/
theorem everyCommandCompletes : Obligations.EveryCommandCompletes := by
  intro i s
  obtain ⟨t, ht⟩ := exec_next i s
  exact ⟨t, ht, (exec_changes ht).same .pending rfl⟩

theorem moment_of_lt {m d : Nat} (h : m + d < 2 ^ 48) : moment m d = m + d := if_pos h

/-- Settles O2. -/
theorem emptyQueueStep : Obligations.EmptyQueueStep := by
  intro s hp hnow
  have hstep : step s = .next s.idle := by
    unfold step
    rw [hp]
  rw [hstep]
  unfold State.idle
  rw [moment_of_lt hnow]
  rfl

/-! ## The part after power-on (R190) -/

theorem Settings.powerOn_sound : Settings.powerOn.sound := by
  unfold Settings.sound
  decide

/-- Settles O5: the lines and the FIFO stand at rest, the settings at their defaults, both banks are clear, and every
table, queue and list is empty. -/
theorem resetIsSound : Obligations.ResetIsSound :=
  ⟨⟨rfl, rfl, Nat.zero_le 32⟩, Settings.powerOn_sound, ⟨Bank.clear_sound 1, Bank.clear_sound 0, fun _ => rfl⟩,
    ⟨fun _ => Nat.zero_le 8, Nat.zero_le 64, Nat.zero_le 64, Nat.zero_le 4⟩,
    ⟨Tbl.wf_nil _, Tbl.wf_nil _, Tbl.wf_nil _, Tbl.wf_nil _, Tbl.wf_nil _, Tbl.wf_nil _⟩,
    .nil, fun _ ht => (List.not_mem_nil ht).elim⟩

/-- Settles O15: power-on is the state after reset, with the waiting commands and the count of free values kept. -/
theorem powerOnSets : Obligations.PowerOnSets := by
  intro s
  refine ⟨s.powerOn, rfl, rfl, rfl, ?_⟩
  exact ⟨rfl, rfl, rfl, rfl, rfl, rfl, rfl, rfl, rfl, fun _ => rfl, rfl, rfl, rfl, rfl, fun _ => rfl, fun _ => rfl,
    fun _ => rfl, rfl, fun _ => rfl, rfl, rfl, fun _ => rfl, rfl, rfl, rfl⟩

/-! ## The Office Port at every step (R183, R185, R187, R188) -/

/-- Settles O6: the lines and the FIFO are one part of what every step keeps. -/
theorem portInvariant : Obligations.PortInvariant :=
  fun _ _ hs hstep => (step_keeps hstep).port hs

theorem irqLevel_iff (p : OfficePort) :
    irqLevel p = true ↔ p.settings.trigger ≤ p.fifo.length ∨ p.overflow = true := by
  simp [irqLevel]

/-- Settles O7: the port stays sound, and a sound port's IRQ has the level of R188. -/
theorem irqLine : Obligations.IrqLine := by
  intro s t hs hstep
  obtain ⟨-, hirq, -⟩ := portInvariant s t hs hstep
  rw [hirq]
  exact irqLevel_iff t.op

/-- Settles O8: the ranges of the settings are one part of what every step keeps. -/
theorem settingsInvariant : Obligations.SettingsInvariant :=
  fun _ _ hs hstep => (step_keeps hstep).settings hs

end Sys2Proof.Machine
end

section
/-! Transactions: the frame of a host command, the response read, frames that are not executed, and what RESET held low
leaves (R183, R184, R191). -/

namespace Sys2Proof.Machine

/-! ## The frame of a transaction (R183) -/

theorem number_pair (hi lo : Byte) : number [hi, lo] = hi.toNat * 256 + lo.toNat := by
  simp [number]

/-- The body that stands behind its stated length. -/
theorem statedBody_framed {body : List Byte} (h : body.length ≤ 255) :
    statedBody (chars 2 body.length ++ body) = some body := by
  have hpair : chars 2 body.length =
      [BitVec.ofNat 8 (body.length / 256 ^ 1), BitVec.ofNat 8 (body.length / 256 ^ 0)] := rfl
  have hnumber : number (chars 2 body.length) = body.length := number_chars (by omega)
  rw [hpair] at hnumber ⊢
  exact if_pos ⟨hnumber.symm, h⟩

/-- A frame that is not sound gives no body. -/
theorem statedBody_unsound {rest : List Byte} (h : frameSound rest = false) : statedBody rest = none := by
  match rest with
  | [] => rfl
  | [_] => rfl
  | hi :: lo :: body =>
    refine if_neg (fun ⟨hlength, hmax⟩ => ?_)
    rw [number_pair] at hlength
    simp [frameSound, statedLength, ← hlength, hmax] at h

theorem State.transaction_framed (s : State) {code : Byte} {body : List Byte} (hc : code ≠ 0#8)
    (hl : body.length ≤ 255) : s.transaction code (chars 2 body.length ++ body) =
      s.transact code body (fun t => t.hostCommand code.toNat body) := by
  unfold State.transaction
  rw [if_neg hc, statedBody_framed hl]

/-! ## The host commands (R184) -/

/-- A well-formed host command has a code other than 0 that one character carries, and a body that a frame carries. -/
theorem hostFrame_bounds {i : Instr} {code : Nat} {body : List Byte} (hw : i.wf = true)
    (h : i.hostFrame = some (code, body)) : 0 < code ∧ code < 256 ∧ body.length ≤ 255 := by
  cases i
  case ticketDirectory =>
    cases h
    decide
  all_goals cases h
  all_goals exact ⟨by decide, by decide, of_decide_eq_true hw⟩

/-- TKT.READ of the number 0 is the ticket directory (R131). -/
theorem State.tktRead_directory (s : State) : s.tktRead [0#8, 0#8] = (s, .ok s.directoryChars) := by
  have hn : field [0#8, 0#8] 1 2 = 0 := by decide
  unfold State.tktRead
  dsimp only
  rw [hn, if_neg (by simp), if_pos rfl]

/-- A host command is executed as the command table of R184 executes its code. -/
theorem exec_hostFrame {i : Instr} {code : Nat} {body : List Byte} (s : State) (h : i.hostFrame = some (code, body)) :
    exec i s = .next (s.transact (BitVec.ofNat 8 code) body (fun t => t.hostCommand code body)) := by
  cases i
  case ticketDirectory =>
    cases h
    exact congrArg (fun run => Host.Outcome.next (s.transact 64 (chars 2 0) run))
      (funext fun t => t.tktRead_directory.symm)
  all_goals cases h
  all_goals rfl

/-- Settles O14: a host command and its transaction are one run of the command table. -/
theorem hostRowIsTransaction : Obligations.HostRowIsTransaction := by
  intro i code body s hw h
  obtain ⟨hpos, hlt, hl⟩ := hostFrame_bounds hw h
  have hcode : (BitVec.ofNat 8 code).toNat = code := toNat_ofNat_char hlt
  have hne : BitVec.ofNat 8 code ≠ 0#8 := by
    intro h0
    rw [h0] at hcode
    exact absurd hcode (Nat.ne_of_lt hpos)
  rw [State.transaction_framed s hne hl, hcode]
  exact exec_hostFrame s h

/-! ## Response reads (R183) -/

/-- What a read sends of a stored response that it sends whole. -/
theorem take_padded {l : List Byte} {n : Nat} (h : l.length ≤ n) :
    (l ++ List.replicate n 0#8).take n = l ++ List.replicate (n - l.length) 0#8 := by
  rw [List.take_append, List.take_of_length_le h, List.take_replicate, Nat.min_eq_left (Nat.sub_le _ _)]

section
variable {s : State} {r : Response} {n : Nat} (hr : s.op.resetLow = false)
include hr

theorem State.responseRead_none (h : s.op.response = none) (n : Nat) :
    s.responseRead n = s.sent (List.replicate n 0#8) := by
  unfold State.responseRead
  rw [hr, if_neg (by simp), h]

theorem State.responseRead_whole (h : s.op.response = some r) (hn : r.chars.length ≤ n) : s.responseRead n =
    (s.sent (r.chars ++ List.replicate (n - r.chars.length) 0#8)).releaseResponse := by
  unfold State.responseRead
  rw [hr, if_neg (by simp), h]
  dsimp only
  rw [if_pos hn, take_padded hn]

theorem State.responseRead_part (h : s.op.response = some r) (hn : n < r.chars.length) :
    s.responseRead n = s.sent (r.chars.take n) := by
  unfold State.responseRead
  rw [hr, if_neg (by simp), h]
  dsimp only
  rw [if_neg (Nat.not_le_of_lt hn), List.take_append_of_le_length (Nat.le_of_lt hn)]

end

theorem exec_responseRead (n : Nat) (s : State) : exec (.responseRead n) s = .next (s.responseRead n) := rfl

/-- Settles O19. -/
theorem responseRead : Obligations.ResponseRead := by
  intro s n hr
  rw [exec_responseRead]
  exact ⟨fun h => congrArg _ (State.responseRead_none hr h n), fun r h =>
    ⟨fun hn => congrArg _ (State.responseRead_whole hr h hn), fun hn => congrArg _ (State.responseRead_part hr h hn)⟩⟩

/-! ## Frames that are not executed (R183, R184) -/

/-- R183: a command that is refused stores its result and nothing else. -/
theorem State.transact_refuses {s : State} {code : Byte} {body : List Byte} {run : State → State × Answer}
    {c : ResultCode} (hr : s.op.resetLow = false) (hl : body.length ≤ 255) (hrun : run s = (s, .refuse c)) :
    s.transact code body run = s.responded code c false [] (3 + body.length) :=
  State.transact_reads hr hl hrun

theorem State.badTransaction_responds {s : State} (hr : s.op.resetLow = false) (code : Byte) (rest : List Byte) :
    s.badTransaction code rest = s.responded code .badArg false [] (1 + rest.length) := by
  unfold State.badTransaction
  rw [hr]
  rfl

/-- R183: an unsound frame, whatever its code, is answered BAD_ARG. -/
theorem State.transaction_unsound {s : State} {code : Byte} {rest : List Byte} (hr : s.op.resetLow = false)
    (hc : code ≠ 0#8) (h : frameSound rest = false) :
    s.transaction code rest = s.responded code .badArg false [] (1 + rest.length) := by
  unfold State.transaction
  rw [if_neg hc, statedBody_unsound h]
  exact State.badTransaction_responds hr code rest

/-- R184: a code that the table does not hold. -/
theorem State.hostCommand_unknown (s : State) {code : Nat} (body : List Byte) (h : code ∉ hostCodes) :
    s.hostCommand code body = (s, .refuse .unknown) := by
  unfold State.hostCommand
  split
  case h_28 => rfl
  all_goals exact absurd (by decide) h

theorem exec_unknownCommand {code : Byte} (hc : code ≠ 0#8) (body : List Byte) (s : State) :
    exec (.unknownCommand code body) s =
      .next (s.transact code body (fun t => t.hostCommand code.toNat body)) :=
  congrArg _ (if_neg hc)

theorem wf_unknownCommand {code : Byte} {body : List Byte} (h : (Instr.unknownCommand code body).wf = true) :
    code ≠ 0#8 ∧ code.toNat ∉ hostCodes ∧ body.length ≤ 255 := by
  simpa [Instr.wf, bodySound, and_assoc] using h

/-- Settles O20. -/
theorem framesNotExecuted : Obligations.FramesNotExecuted := by
  intro s hr
  refine ⟨fun code rest hc h => congrArg _ (State.transaction_unsound hr hc h), fun code body hw => ?_, fun l => ?_, ?_⟩
  · obtain ⟨hc, hcode, hl⟩ := wf_unknownCommand hw
    rw [exec_unknownCommand hc]
    exact congrArg _ (State.transact_refuses hr hl (s.hostCommand_unknown body hcode))
  · show Host.Outcome.next (if s.op.resetLow then s else s.sent (List.replicate l.length 0#8)) = _
    rw [hr]
    rfl
  · show Host.Outcome.next (if s.op.resetLow then s else s.sent []) = _
    rw [hr]
    rfl

/-! ## RESET held low (R191) -/

section
variable {s : State} (hr : s.op.resetLow = true)
include hr

theorem State.transact_resetLow (code : Byte) (body : List Byte) (run : State → State × Answer) :
    s.transact code body run = s := if_pos hr

theorem State.responseRead_resetLow (n : Nat) : s.responseRead n = s := if_pos hr

theorem State.transaction_resetLow (code : Byte) (rest : List Byte) : s.transaction code rest = s := by
  unfold State.transaction
  split
  · exact State.responseRead_resetLow hr _
  · split
    · exact State.transact_resetLow hr _ _ _
    · exact if_pos hr

/-- A row of the host while RESET is low: the host commands go through their transaction, the other rows each look at
RESET themselves. -/
theorem exec_hostRow_resetLow {i : Instr} (h : hostRow i = true) : exec i s = .next s := by
  have hframed (hsome : i.hostFrame.isSome = true) : exec i s = .next s := by
    obtain ⟨⟨code, body⟩, hframe⟩ := Option.isSome_iff_exists.mp hsome
    rw [exec_hostFrame s hframe, State.transact_resetLow hr]
  cases i
  case responseRead n => exact congrArg _ (State.responseRead_resetLow hr n)
  case badFrame code rest => exact congrArg _ (State.transaction_resetLow hr code rest)
  case shortTransaction l => exact congrArg _ (if_pos hr)
  case unknownCommand code body =>
    refine congrArg Host.Outcome.next ?_
    split
    · exact State.responseRead_resetLow hr _
    · exact State.transact_resetLow hr _ _ _
  case emptyTransaction => exact congrArg _ (if_pos hr)
  all_goals exact hframed h

theorem State.deliver_resetLow (a : Nat) (k : StationKind) (room : Bool) (f : State → State) :
    s.deliver a k room f = s := by
  simp [State.deliver, hr]

/-- The row of a deadline only lets time pass (log entry 1). -/
theorem State.deadlineRow_resetLow (d : Deadline) : s.later (s.deadlineRow d) := by
  unfold State.deadlineRow
  cases s.deadlineOf d with
  | none => exact ⟨s.op.now, Nat.le_refl _, rfl⟩
  | some m => exact ⟨max s.op.now m, Nat.le_max_left _ _, if_pos hr⟩

end

/-- RESET falls: the line is marked, and an open visit ends (R191). -/
theorem State.resetFall_marks {s : State} (hr : s.op.resetLow = false) :
    s.resetFall.op = { s.op with resetLow := true } ∧ s.resetFall.lc.visit = none
      ∧ s.resetFall.lc.stations = s.lc.stations := by
  unfold State.resetFall
  rw [hr, if_neg (by simp)]
  dsimp only
  cases hv : s.lc.visit with
  | none => exact ⟨rfl, hv, rfl⟩
  | some v => exact ⟨rfl, rfl, rfl⟩

/-- Settles O16. -/
theorem resetHolds : Obligations.ResetHolds := by
  refine ⟨fun s hr => ?_, fun s hr => ⟨fun i hi => exec_hostRow_resetLow hr hi,
    fun a f room => State.deliver_resetLow hr a _ room f, State.deadlineRow_resetLow hr⟩⟩
  obtain ⟨hop, hvisit, hstations⟩ := State.resetFall_marks hr
  exact ⟨s.resetFall, rfl, hop, hvisit, hstations, State.resetFall_changes (Changes.refl _ s) rfl⟩

/-! ## Refusals (R183, R184) -/

/-- A result other than OK has an empty body and no mark, and the state is the one before. -/
def State.RefusesWhole (s : State) (r : State × Answer) : Prop :=
  r.2.result ≠ .ok → r.1 = s ∧ r.2.body = [] ∧ r.2.clamped = false

section
variable {s : State} {body : List Byte}

theorem State.refusesWhole_refuse (c : ResultCode) : s.RefusesWhole (s, .refuse c) := fun _ => ⟨rfl, rfl, rfl⟩

theorem State.refusesWhole_ok (t : State) (out : List Byte) : s.RefusesWhole (t, .ok out) := fun h => absurd rfl h

theorem State.refusesWhole_clamp (t : State) (b : Bool) : s.RefusesWhole (t, .clamp b) := fun h => absurd rfl h

/-- Every branch of every host command ends in one of the three answers: a refusal of the state itself, OK, or OK with
the "clamped" mark. -/
theorem State.hostCommand_refusesWhole (s : State) (code : Nat) (body : List Byte) :
    s.RefusesWhole (s.hostCommand code body) := by
  unfold State.hostCommand State.artCreate State.artChange State.artRetire State.artRead State.stnConfig State.stnMode
    State.stnRead State.clkEnrol State.clkRemove State.clkRead State.tktRead State.tktCancel State.tktRelease
    State.queRead State.queReset State.wchSet State.wchRead State.totClose State.totRead State.totClear State.ctrSet
    State.ctrRead State.ctrTime State.ctrRestart State.ctrStatus State.ntcRead State.ntcAck
  dsimp only
  (repeat' split) <;> simp only [State.refusesWhole_refuse, State.refusesWhole_ok, State.refusesWhole_clamp]

/-- A body of another length than the command's arguments take: first the commands whose first check is of the length
alone, then those that check a number with it. -/
theorem State.hostCommand_wrongLength (s : State) {code n : Nat} (h : fixedLength code = some n)
    (hl : body.length ≠ n) : s.hostCommand code body = (s, .refuse .badArg) := by
  unfold fixedLength at h
  split at h <;> cases h
  case h_3 | h_12 | h_14 | h_15 | h_16 | h_18 | h_19 | h_20 | h_21 | h_22 | h_23 | h_24 | h_25 => exact if_pos hl
  all_goals exact if_pos (.inl hl)

theorem contentForm_of_notLaidOut (h : ¬ contentLaidOut body) : contentForm body = false := by
  rw [← Bool.not_eq_true]
  intro hform
  simp only [contentForm, articleNumber, Bool.and_eq_true, decide_eq_true_eq, beq_iff_eq, and_assoc] at hform
  exact h hform

theorem State.content_refused (s : State) (h : ¬ contentLaidOut body) :
    s.hostCommand 16 body = (s, .refuse .badArg) ∧ s.hostCommand 17 body = (s, .refuse .badArg) := by
  have hform : (!contentForm body) = true := by rw [contentForm_of_notLaidOut h]; rfl
  exact ⟨if_pos hform, if_pos hform⟩

theorem articleNumber_outside {n : Nat} (h : n < 1 ∨ 2048 < n) : (!articleNumber n) = true := by
  simp only [articleNumber, Bool.not_eq_true', Bool.and_eq_false_iff, decide_eq_false_iff_not]
  omega

end

/-- Settles O25. -/
theorem wrongRequestsRefused : Obligations.WrongRequestsRefused := by
  intro s body
  refine ⟨fun code => s.hostCommand_refusesWhole code body, fun code n h hl => s.hostCommand_wrongLength h hl,
    s.content_refused, fun h => ?_, fun h => ?_, fun h => ?_, fun h => ?_, fun h => ?_⟩
  · have hn := articleNumber_outside h
    exact ⟨if_pos (.inr hn), if_pos (.inr hn)⟩
  · exact ⟨if_pos (.inr h), if_pos (.inr h)⟩
  · have henrol : field body 1 1 < 1 ∨ 24 < field body 1 1 ∨ 1 < field body 2 1 := h.imp_right .inl
    exact ⟨if_pos (.inr henrol), if_pos (.inr h), if_pos (.inr h)⟩
  · exact if_pos (.inr h)
  · exact ⟨if_pos (.inr h), if_pos (.inr h)⟩

end Sys2Proof.Machine
end

section
/-! Counter settings, the clock and notices: CTR.SET with the evaluation of every channel, CTR.TIME and the tick, and
where a notice is placed, read and acknowledged (R62, R185 to R188). -/

namespace Sys2Proof.Machine

/-! ## Every channel evaluated (R62) -/

theorem State.evaluateAll_changes (s : State) (l : List Nat) : Changes [.we, .lc] s (l.foldl State.evaluate s) :=
  Changes.foldl l (Changes.refl _ s) (fun u a => State.evaluate_changes a (Changes.refl _ u) rfl)

/-- Of the evaluations of distinct scales, only a scale's own changes its channel and reads it. -/
theorem State.evaluateAll_channel (s : State) {l : List Nat} (hn : l.Nodup) {a : Nat} (ha : a ∈ l) :
    (l.foldl State.evaluate s).channel a = judged (s.channel a) (s.verdictOf a (s.channel a)) := by
  obtain ⟨before, behind, rfl, hout⟩ := List.eq_append_cons_of_mem ha
  have hbehind : a ∉ behind := (List.nodup_cons.mp hn.of_append_right).1
  have hskip {m : List Nat} (hm : a ∉ m) (u : State) : u.SameScale (m.foldl State.evaluate u) a :=
    .foldl u (fun v b hb => v.evaluate_same (fun hba => hm (hba ▸ hb)))
  obtain ⟨u, hu⟩ : ∃ u, u = before.foldl State.evaluate s := ⟨_, rfl⟩
  have hsame : s.SameScale u a := hu ▸ hskip hout s
  have hop : u.op = s.op := hu ▸ (s.evaluateAll_changes before).same .op rfl
  rw [List.foldl_append, List.foldl_cons, ← hu, (hskip hbehind _).channel, State.evaluate_channel, hsame.channel,
    State.verdictOf_congr hop (congrArg (·.state) hsame.station)]

/-! ## CTR.SET (R185) -/

theorem incrementSound_iff (d : Nat) : incrementSound d = true ↔ d = 1 ∨ d = 5 ∨ d = 10 := by
  simp [incrementSound, or_assoc]

section
variable {s : State} {body : List Byte}

theorem State.ctrSet_refused
    (h : body.length ≠ 19 ∨ ¬ (field body 3 1 = 1 ∨ field body 3 1 = 5 ∨ field body 3 1 = 10)) :
    s.ctrSet body = (s, .refuse .badArg) := by
  unfold State.ctrSet
  split
  · rfl
  · rename_i hl
    exact if_neg (fun hd => (h.resolve_left hl) ((incrementSound_iff _).mp hd))

theorem State.ctrSet_accepted (hl : body.length = 19)
    (hd : field body 3 1 = 1 ∨ field body 3 1 = 5 ∨ field body 3 1 = 10) : s.ctrSet body =
      (s.storeSettings (clampSettings (settingsOf body)),
        .clamp (decide (clampSettings (settingsOf body) ≠ settingsOf body))) :=
  (if_neg (not_not.mpr hl)).trans (if_pos ((incrementSound_iff _).mpr hd))

theorem exec_ctrSet (body : List Byte) (s : State) :
    exec (.ctrSet body) s = .next (s.transact 128 body (fun t => t.ctrSet body)) := rfl

/-- The Office Port takes the settings and evaluates IRQ; the evaluations of the channels leave it. -/
theorem State.storeSettings_op (s : State) (c : Settings) :
    (s.storeSettings c).op = OfficePort.evalIrq { s.op with settings := c } := by
  unfold State.storeSettings
  dsimp only
  split
  · rfl
  · exact (State.evaluateAll_changes _ scales).same .op rfl

theorem State.storeSettings_sameIncrement {c : Settings} (h : c.increment = s.op.settings.increment) :
    s.storeSettings c = { s with op := OfficePort.evalIrq { s.op with settings := c } } := if_pos h

theorem State.storeSettings_channel {c : Settings} (h : c.increment ≠ s.op.settings.increment) {a : Nat} (h1 : 1 ≤ a)
    (h2 : a ≤ 16) : (s.storeSettings c).channel a = judged (s.channel a)
      (formVerdict (s.channel a) c.increment (decide ((s.station a).state = .proof))) := by
  unfold State.storeSettings
  dsimp only
  rw [if_neg h]
  exact State.evaluateAll_channel _ (by decide) ((mem_scales a).mpr ⟨h1, h2⟩)

end

/-- Settles O22: the port takes the settings, and each channel sees the one evaluation that is its own. -/
theorem ctrSetStores : Obligations.CtrSetStores := by
  intro s body hr hl
  refine ⟨fun h => ?_, fun hlength hd => ?_⟩
  · rw [exec_ctrSet]
    exact congrArg _ (State.transact_refuses hr hl (State.ctrSet_refused h))
  · obtain ⟨u, hu⟩ : ∃ u, u = s.storeSettings (clampSettings (settingsOf body)) := ⟨_, rfl⟩
    have hop : u.op = OfficePort.evalIrq { s.op with settings := clampSettings (settingsOf body) } :=
      hu ▸ s.storeSettings_op _
    have hchanges : Changes [.we, .lc, .op] s u := hu ▸ State.storeSettings_changes _ (Changes.refl _ s) rfl
    rw [exec_ctrSet, State.transact_responds hr hl (State.ctrSet_accepted hlength hd), ← hu]
    refine ⟨_, rfl, ?_, ?_, rfl, ?_, ?_, ?_, ?_, fun hsame => ?_, fun hchanged a h1 h2 => ?_, ?_⟩
    · show u.op.settings = _
      rw [hop]
      simp [OfficePort.evalIrq, clampSettings, settingsOf, clampTo]
    · show some _ = some _
      rw [show (u.responded 128 _ _ _ _).op.settings = clampSettings (settingsOf body) from congrArg (·.settings) hop]
      rfl
    · show u.op.irq = irqLevel u.op
      rw [hop]
      rfl
    · exact congrArg (·.fifo) hop
    · exact congrArg (·.now) hop
    · exact congrArg (·.clock) hop
    · rw [hu, State.storeSettings_sameIncrement hsame]
      exact ⟨rfl, rfl⟩
    · show u.channel a = _
      rw [hu]
      exact State.storeSettings_channel hchanged h1 h2
    · exact State.portUpdate_changes _ hchanges rfl

/-! ## The clock (R186) -/

theorem exec_ctrTime (body : List Byte) (s : State) :
    exec (.ctrTime body) s = .next (s.transact 130 body (fun t => t.ctrTime body)) := rfl

theorem State.ctrTime_eq (s : State) {v : Nat} (h : v < 4294967296) :
    s.ctrTime (chars 4 v) = ({ s with op := { s.op with clock := v, clockBase := s.op.now } }, .ok []) := by
  unfold State.ctrTime
  rw [if_neg (by simp), field_chars_eq h]

theorem State.clockTick_eq {s : State} (h : s.op.clockBase + 1000 < 2 ^ 48) : s.clockTick = { s with op :=
    { s.op with clock := (s.op.clock + 1) % 4294967296, clockBase := s.op.clockBase + 1000,
                now := max s.op.now (s.op.clockBase + 1000) } } := by
  unfold State.clockTick
  rw [moment_of_lt h]
  rfl

theorem exec_clockTick (s : State) : exec .clockTick s = .next s.clockTick := rfl

/-- Settles O23. -/
theorem clockMoves : Obligations.ClockMoves := by
  refine ⟨fun s v hr hv => ?_, fun s h => ?_⟩
  · rw [exec_ctrTime, State.transact_responds hr (by simp) (s.ctrTime_eq hv), chars_length]
    rfl
  · rw [exec_clockTick, State.clockTick_eq h]

/-! ## Notices (R187, R188) -/

theorem OfficePort.place_full {p : OfficePort} (ho : p.overflow = false) (hl : p.fifo.length = 32) (k : NoticeKind)
    (l : List Nat) : p.place k l = OfficePort.evalIrq { p with overflow := true } := by
  unfold OfficePort.place
  rw [ho, if_neg (by simp), if_neg (by omega)]

theorem OfficePort.place_marked {p : OfficePort} (ho : p.overflow = true) (k : NoticeKind) (l : List Nat) :
    p.place k l = p.evalIrq := by
  unfold OfficePort.place
  rw [if_pos ho]

theorem OfficePort.evalIrq_irq (p : OfficePort) : p.evalIrq.irq = irqLevel p.evalIrq := rfl

theorem OfficePort.place_irq (p : OfficePort) (k : NoticeKind) (l : List Nat) :
    (p.place k l).irq = irqLevel (p.place k l) :=
  OfficePort.evalIrq_irq _

theorem exec_ntcRead (body : List Byte) (s : State) :
    exec (.ntcRead body) s = .next (s.transact 144 body (fun t => t.ntcRead body)) := rfl

theorem exec_ntcAck (body : List Byte) (s : State) :
    exec (.ntcAck body) s = .next (s.transact 145 body (fun t => t.ntcAck body)) := rfl

/-- Settles O24. -/
theorem noticesKept : Obligations.NoticesKept := by
  refine ⟨fun s k l => ⟨fun ho hl => ?_, fun ho hl => ?_, fun ho => ?_, s.op.place_irq k l⟩, fun s hr => ⟨?_, ?_⟩⟩
  · exact (OfficePort.place_placed ho hl k l).symm
  · have hplace := OfficePort.place_full ho hl k l
    exact ⟨congrArg (·.overflow) hplace, congrArg (·.fifo) hplace⟩
  · have hplace := OfficePort.place_marked ho k l
    exact ⟨(congrArg (·.overflow) hplace).trans ho, congrArg (·.fifo) hplace⟩
  · rw [exec_ntcRead, State.transact_responds hr (by simp) rfl]
    refine ⟨_, rfl, rfl, rfl, rfl, State.portUpdate_changes _ (State.ntcRead_changes [] (Changes.refl _ s) rfl) rfl, ?_⟩
    simp [State.responded, Answer.ok]
  · rw [exec_ntcAck, State.transact_responds hr (by simp) rfl]
    exact ⟨_, rfl, rfl, rfl, rfl, State.portUpdate_changes _ (State.ntcAck_changes [] (Changes.refl _ s) rfl) rfl, rfl⟩

end Sys2Proof.Machine
end

section
/-! Warm restarts by the pin and by CTR.RESTART, and a RESET pulse too short to restart (R191). -/

namespace Sys2Proof.Machine

/-! ## The restart and the lines of the Office Port -/

/-- What a restart leaves does not depend on the stored response, READY and RESET before it, nor on the response, READY
and the characters sent that are set behind it. -/
theorem State.Restarted.of_lines {s t : State} {c : StartCause} {n : Nat} (r r' : Option Response) (b b' low : Bool)
    (out : List Byte)
    (h : State.Restarted { s with op := { s.op with response := r, ready := b, resetLow := low } } t c n) :
    s.Restarted { t with op := { t.op with response := r', ready := b', spiOut := out } } c n where
  stations := h.stations
  visits := h.visits
  slots := h.slots
  channels := h.channels
  articles := h.articles
  copies := h.copies
  clerks := h.clerks
  tickets := h.tickets
  lastTicket := h.lastTicket
  prints := h.prints
  queue := h.queue
  watch := h.watch
  totals := h.totals
  time := h.time
  settings := h.settings
  notices := h.notices
  start := h.start
  line := h.line

/-! ## RESET rises (R191) -/

/-- The part with RESET high again, before anything else happens. -/
def State.resetHigh (s : State) : State := { s with op := { s.op with resetLow := false } }

section
variable {s : State} {n : Nat}

theorem exec_resetRise_long (hr : s.op.resetLow = true) (hn : 10 ≤ n) :
    exec (.resetRise n) s = .next (s.resetHigh.releaseResponse.warmRestart .pin) :=
  congrArg _ ((if_pos hr).trans (if_pos hn))

theorem exec_resetRise_short (hr : s.op.resetLow = true) (hn : n < 10) :
    exec (.resetRise n) s = .next s.resetHigh.takeDue.nextSlot :=
  congrArg _ ((if_pos hr).trans (if_neg (Nat.not_le_of_lt hn)))

/-- With no deadline reached none is taken: only the count of free values goes on. -/
theorem State.takeDue_none (h : ∀ d, s.due d = false) : s.takeDue = { s with freeCount := s.freeCount + 1 } := by
  have horder : s.dueOrder = [] := by
    unfold State.dueOrder
    rw [List.filter_eq_nil_iff.mpr (fun d _ => by simp [h d])]
    rfl
  unfold State.takeDue
  rw [horder]
  rfl

end

/-- Settles O17: the restart by the pin reads a port without a response; a short pulse restarts nothing. -/
theorem resetRises : Obligations.ResetRises := by
  intro s n hr
  refine ⟨fun hn hw => ?_, fun hn => exec_resetRise_short hr hn, fun hn hdue => ?_⟩
  · obtain ⟨hrestarted, hresponse, hready, hlow⟩ := s.resetHigh.releaseResponse.warmRestart_restarted .pin hw
    exact ⟨_, exec_resetRise_long hr hn, State.Restarted.of_lines (s := s) none _ false _ false _ hrestarted, hlow,
      hresponse, hready⟩
  · have htake : s.resetHigh.takeDue = { s.resetHigh with freeCount := s.freeCount + 1 } := State.takeDue_none hdue
    have hslot : Changes [.lc] s.resetHigh.takeDue s.resetHigh.takeDue.nextSlot :=
      State.nextSlot_changes (Changes.refl _ _) rfl
    have hrise : Changes [.op, .free] s s.resetHigh.takeDue := by
      rw [htake]
      exact State.countUpdate_changes _ (State.portUpdate_changes _ (Changes.refl _ s) rfl) rfl
    refine ⟨_, exec_resetRise_short hr hn, ?_, (hrise.of rfl).trans (hslot.of rfl)⟩
    rw [hslot.same .op rfl, htake]
    rfl

/-! ## CTR.RESTART (R191) -/

theorem exec_ctrRestart (body : List Byte) (s : State) :
    exec (.ctrRestart body) s = .next (s.transact 131 body (fun t => t.ctrRestart body)) := rfl

theorem State.ctrRestart_empty (s : State) : s.ctrRestart [] = (s.warmRestart .command, .ok []) := rfl

theorem State.ctrRestart_refused (s : State) {body : List Byte} (h : body ≠ []) :
    s.ctrRestart body = (s, .refuse .badArg) :=
  if_pos (fun hl => h (List.length_eq_zero_iff.mp hl))

/-- Settles O18: what the restart leaves does not depend on the response stored behind it. -/
theorem commandRestarts : Obligations.CommandRestarts := by
  intro s hr
  refine ⟨fun hw => ?_, fun body hb hl => ?_⟩
  · obtain ⟨hrestarted, -⟩ := s.warmRestart_restarted .command hw
    rw [exec_ctrRestart, State.transact_responds hr (by simp) s.ctrRestart_empty]
    exact ⟨_, rfl, State.Restarted.of_lines s.op.response _ s.op.ready _ s.op.resetLow _ hrestarted, rfl, rfl⟩
  · rw [exec_ctrRestart]
    exact congrArg _ (State.transact_refuses hr hl (s.ctrRestart_refused hb))

end Sys2Proof.Machine
end

section
/-! The step and what every command keeps: the front of the queue is executed, no block outside a command's list changes,
and the tables of records stay canonical (log entries 6 and 7). -/

namespace Sys2Proof.Machine

/-- Settles O1: by the definition of step, and the queue's rest is the state's own queue. -/
theorem stepRunsFront : Obligations.StepRunsFront := fun _ _ => rfl

/-- Settles O12: the canonical tables are one part of what every step keeps. -/
theorem tableInvariant : Obligations.TableInvariant :=
  fun _ _ hs hstep => (step_keeps hstep).tables hs

/-! ## The frame of every command (log entry 6)

A host command changes what its request changes and the Office Port, a message what its action changes and the Line
Controller; the frame of each operation is its lemma among the laws of frames. -/

/-- Settles O4: by the way in which a command reaches the part. -/
theorem everyCommandFrame : Obligations.EveryCommandFrame := by
  intro i s t h
  cases i <;> obtain rfl := Host.Outcome.next.inj h
  -- the requests of R184
  case artCreate | artChange | artRetire | artRead | stnConfig | stnMode | stnRead | clkEnrol | clkRemove | clkRead
      | tktRead | ticketDirectory | tktCancel | tktRelease | queRead | queReset | wchSet | wchRead | totClose | totRead
      | totClear | ctrSet | ctrRead | ctrTime | ctrRestart | ctrStatus | ntcRead | ntcAck =>
    exact State.transact_changes _ _ (.refl _ s) rfl (fun u => by simp [touches])
  -- the two rows of frames that are not executed: any transaction (log entry 6)
  case badFrame code rest => exact State.transaction_changes code rest (.refl _ s) rfl
  case unknownCommand code body =>
    split
    · exact State.responseRead_changes _ (.refl _ s) rfl
    · exact State.transact_changes _ _ (.refl _ s) rfl (fun u => State.hostCommand_changes _ _ (.refl _ u) rfl)
  -- the scale actions of R22
  case select | clear | tare | ptare | clrtare | zero | qty | login | logout | newTicket | switch | add | label | voidItem
      | voidTicket | close | release | next | recallNumber | skip | override =>
    exact State.deliverAction_changes _ (.refl _ s) rfl (fun u => by simp [touches])
  case unknownAction a c =>
    split
    · exact .refl _ s
    · exact State.deliverAction_changes a (.refl _ s) rfl (fun u => State.takeUnknown_changes a c (.refl _ u) rfl)
  -- the other messages of R22
  case samples | purged | printed =>
    split
    · exact State.deliver_changes _ _ _ (.refl _ s) rfl (fun u => by simp [touches])
    · exact .refl _ s
  case take => exact State.deliver_changes _ _ _ (.refl _ s) rfl (fun u => State.takeTake_changes (.refl _ u) rfl)
  -- the deadlines
  case settleTimeout n => exact s.settleRow_changes n
  case idleDeadlineExpiry n => exact s.idleRow_changes n
  case expiryDeadlineExpiry n => exact s.expiryRow_changes n
  case printDeadlineExpiry n => exact s.printRow_changes n
  case residencyExpiry => exact s.residencyRow_changes
  -- transactions that are ignored while RESET is held low
  case shortTransaction | emptyTransaction => split <;> simp [touches]
  -- the rows that are one operation of the part
  case powerOn | resetFall | resetRise | responseRead | clockTick | downstreamSent | replyFrame | replyWindowExpiry
      | replyIncomplete | lineCharactersOutsideVisit => simp [touches]

end Sys2Proof.Machine
end
